-- ==== Sys2Proof/Word.lean ====
section
/-! DEFINITION. The words of the 16-QAM demodulator core: samples, symbols, beat words and the STATUS
word (00_scope.md R6, R7). Bit 0 of a word is its least significant bit (R7). -/

namespace Sys2Proof

/-- An 8-bit sample pattern or output byte (00_scope.md R6, R8). -/
abbrev Byte := BitVec 8

/-- A 4-bit symbol (00_scope.md R6). -/
abbrev Symbol := BitVec 4

/-- The 10-bit beat word of `in_word` (30_encoding.md R80). -/
abbrev Word10 := BitVec 10

/-- The 16-bit STATUS word of the port `status` (10_state.md R30). -/
abbrev Word16 := BitVec 16

end Sys2Proof
end

