-- ==== Sys2Proof/Syntax.lean ====
section
/-! DEFINITION. The instructions of the block: its four input beats (30_encoding.md R82; 00_scope.md R2).
The data field of END, SRCERR and START is ignored by the block (R84); the constructors keep it, so
that decoding a beat word loses no bit of it (log entry 17). -/

namespace Sys2Proof

/-- One input beat, one constructor for each row of spec/opcode_table.json (30_encoding.md R82). -/
inductive Instr where
  /-- SAMPLE: one 8-bit sample pattern, one rail of one pair (R82, R83). -/
  | sample (data : Byte)
  /-- END: end of stream, close the frame (R82). The data is ignored (R84). -/
  | endBeat (data : Byte)
  /-- SRCERR: the sample source is unavailable, close the frame with an error (R82). The data is ignored (R84). -/
  | srcErr (data : Byte)
  /-- START: begin a new frame (R82). The data is ignored (R84). -/
  | start (data : Byte)
  deriving DecidableEq, Repr

end Sys2Proof
end

