-- ==== Sys2Proof/Decode.lean ====
section
/-! DEFINITION. Decoding of beat words and the encoder (30_encoding.md R80, R82). -/

namespace Sys2Proof

/-- The field `kind`, bits 9:8 of a beat word (30_encoding.md R80). -/
def kindField (w : Word10) : BitVec 2 := w.extractLsb' 8 2

/-- The field `data`, bits 7:0 of a beat word (30_encoding.md R80). -/
def dataField (w : Word10) : Byte := w.extractLsb' 0 8

/-- The beat word with a given kind and data (30_encoding.md R80). -/
def beatWord (kind : BitVec 2) (data : Byte) : Word10 := kind ++ data

/-- Decoding reads `kind` and needs nothing else to choose the beat; the four kinds cover all 1024
words (30_encoding.md R82). -/
def decode (w : Word10) : Instr :=
  match (kindField w).toNat with
  | 0 => .sample (dataField w)
  | 1 => .endBeat (dataField w)
  | 2 => .srcErr (dataField w)
  | _ => .start (dataField w)

/-- The beat word of an instruction (30_encoding.md R82; 44_stream_control.md R181, R185, R186, R187).
An assembler writes the data 0x00 for END, SRCERR and START (R84). -/
def encode : Instr → Word10
  | .sample d => beatWord 0b00#2 d
  | .endBeat d => beatWord 0b01#2 d
  | .srcErr d => beatWord 0b10#2 d
  | .start d => beatWord 0b11#2 d

/-- Why a number is no beat word. -/
inductive DecodeError where
  /-- The number has a bit above bit 9, and `in_word` has ten wires (10_state.md R22). -/
  | widerThanBeatWord
  deriving DecidableEq, Repr

/-- Decoding of any natural number: a beat word is a number of ten bits (30_encoding.md R80), and no
number of ten bits is refused (R85). -/
def decodeNat (w : Nat) : Except DecodeError Instr :=
  if w < 1024 then .ok (decode (BitVec.ofNat 10 w)) else .error .widerThanBeatWord

/-- The instruction that the decoder reads from an opcode-table word, bit 0 its least significant bit.
A beat is exactly one word of ten bits (30_encoding.md R80), so `nbits` decides nothing. -/
def decodeTableWord (_nbits w : Nat) : Option Instr :=
  match decodeNat w with
  | .ok i => some i
  | .error _ => none

end Sys2Proof
end

