-- ==== Sys2Proof/Machine/BitAssembler.lean ====
section
/-! DEFINITION. The bit-serial assembler stage: a symbol becomes four bits, MSB first
(41_bit_assembler.md). It has no state of its own. -/

namespace Sys2Proof.Machine

/-- `SER(sym) = (sym[3], sym[2], sym[1], sym[0])`, the first in stream order first (41_bit_assembler.md R120). -/
def ser (sym : Symbol) : List Bool :=
  [sym.getLsbD 3, sym.getLsbD 2, sym.getLsbD 1, sym.getLsbD 0]

end Sys2Proof.Machine
end

