-- ==== Sys2Proof/Machine/Operands.lean ====
section
/-! DEFINITION. The one operand form of the block, the 8-bit sample of a SAMPLE beat: its signed value
(00_scope.md R8; 30_encoding.md R83), its validity and its level code (40_demodulator.md R100, R101). -/

namespace Sys2Proof.Machine

/-- The signed value of a sample pattern, two's complement (00_scope.md R8; PRESUMED, log entry 10). -/
def sval (v : Byte) : Int := v.toInt

/-- The sample pattern of a signed value, `v mod 256` (00_scope.md R8; PRESUMED, log entry 10). -/
def samplePattern (v : Int) : Byte := BitVec.ofInt 8 v

/-- `VALID(v)`: the pattern is one of the four constellation levels (40_demodulator.md R100). -/
def valid (v : Byte) : Bool := v == 0xFD#8 || v == 0xFF#8 || v == 0x01#8 || v == 0x03#8

/-- `LC(v) = (sval(v) + 3) / 2`, defined for `VALID(v) = 1` (40_demodulator.md R101). No rule reads it
for another `v` (93_implementation_defined.md I9; log entry 21). -/
def levelCode (v : Byte) : BitVec 2 := BitVec.ofInt 2 ((sval v + 3) / 2)

end Sys2Proof.Machine
end

