-- ==== Sys2Proof/Machine/Rom.lean ====
section
/-! DEFINITION. The two constant ROMs of the block (10_state.md R26; 20_memory.md R60 to R63). They are
constants and no state: no port and no beat writes them, and reset does not change them (log entry 9). -/

namespace Sys2Proof.Machine

/-- The contents of `ROM_C` by address (20_memory.md R60). -/
def romTable : Vector Symbol 16 :=
  #v[0, 1, 2, 3, 4, 5, 6, 7, 12, 13, 14, 15, 8, 9, 10, 11]

/-- `ROM_C[a]`: one entry of the constellation ROM (20_memory.md R60; 00_scope.md R9). -/
def romC (a : BitVec 4) : Symbol := romTable[a.toNat]'(a.isLt)

/-- The contents of `KEY` by address (20_memory.md R62). -/
def keyTable : Vector Bool 13 :=
  #v[true, false, true, true, true, false, false, false, true, false, true, false, false]

/-- `KEY[k]`: one bit of the key ROM (20_memory.md R62; 00_scope.md R9). -/
def key (k : Fin 13) : Bool := keyTable[k.val]'(k.isLt)

/-- Packed with `KEY[k]` at bit k, the 13-bit constant of 20_memory.md R62. -/
def keyPacked : BitVec 13 := 0x051D#13

/-- The inverse of `ROM_C`, symbol to (I, Q) as signed levels (20_memory.md R61). -/
def symTable : Vector (Int × Int) 16 :=
  #v[(-3, -3), (-3, -1), (-3, 1), (-3, 3), (-1, -3), (-1, -1), (-1, 1), (-1, 3),
     (3, -3), (3, -1), (3, 1), (3, 3), (1, -3), (1, -1), (1, 1), (1, 3)]

/-- The signed levels (I, Q) of a symbol (20_memory.md R61). -/
def symLevels (s : Symbol) : Int × Int := symTable[s.toNat]'(s.isLt)

end Sys2Proof.Machine
end

