-- ==== Sys2Proof/Machine/Demodulator.lean ====
section
/-! DEFINITION. The demodulator stage: the constellation ROM lookup (40_demodulator.md). A pure function,
with no state between pairs (R105). -/

namespace Sys2Proof.Machine

/-- `DEMOD(I, Q) -> (sym, ok)` (40_demodulator.md R102). An out-of-constellation pair gives the
substitute symbol 0 with `ok = 0`; the substitution is lossy, not a decode (R104; log entry 11). -/
def demod (i q : Byte) : Symbol × Bool :=
  if valid i && valid q then (romC (levelCode i ++ levelCode q), true)
  else (0b0000#4, false)

end Sys2Proof.Machine
end

