-- ==== Sys2Proof/Config.lean ====
section
/-! DEFINITION. What an implementation fixes (00_scope.md R6) and the values the spec leaves open
(93_implementation_defined.md I2). -/

namespace Sys2Proof

/-- The two implementation parameters of 00_scope.md R6 (93_implementation_defined.md I6, I7). -/
structure Params where
  /-- `OUT_DEPTH`: the capacity of the output queue, in entries. -/
  outDepth : Nat
  /-- `CNT_W`: the width in bits of each of the four frame counters. -/
  cntW : Nat
  deriving DecidableEq, Repr

/-- The defaults that the spec's examples use (00_scope.md R6). -/
def Params.default : Params := { outDepth := 2, cntW := 32 }

/-- DESIGN CHOICE (log entry 4). What `out_byte` shows while `out_valid = 0`: an unspecified value
(10_state.md R22; 93_implementation_defined.md I2), a fresh one for each rising edge. -/
opaque Config.idleOutByte : Nat → Byte

/-- DESIGN CHOICE (log entry 4). What `out_taint` shows while `out_valid = 0`: an unspecified value
(10_state.md R22; 93_implementation_defined.md I2), a fresh one for each rising edge. -/
opaque Config.idleOutTaint : Nat → BitVec 1

end Sys2Proof
end

