-- ==== Sys2Proof/Machine/State.lean ====
section
/-! DEFINITION. The state of the block (10_state.md R27 to R46, R49), its reset value, and the reasons a
step could stop. -/

namespace Sys2Proof.Machine

/-- One entry of `outq`: a byte and its taint bit (10_state.md R46; 30_encoding.md R81). -/
@[ext]
structure Entry where
  /-- The reframed byte. -/
  byte : Byte
  /-- True when the byte holds a bit of an out-of-constellation pair (43_reframer.md R163). -/
  taint : Bool
  deriving DecidableEq, Repr

/-- The fields of STATUS (10_state.md R30). The reserved bits 7 and 15:12 are hardwired to 0 (R39), so
they have no storage here; `Status.word` shows them (log entry 5). -/
@[ext]
structure Status where
  /-- Bit 0: the frame has ended (R31). -/
  done : Bool
  /-- Bit 1: the frame was ended by END with zero samples (R32). -/
  no_data : Bool
  /-- Bit 2: the frame was ended by SRCERR (R33). -/
  src_err : Bool
  /-- Bit 3: an odd trailing sample was dropped (R34). -/
  orphan : Bool
  /-- Bit 4: the frame holds an out-of-constellation pair (R35). -/
  ooc : Bool
  /-- Bit 5: a beat other than START came while DONE = 1 (R36). -/
  seq_err : Bool
  /-- Bit 6: a counter increment saturated (R37). -/
  cnt_sat : Bool
  /-- Bits 11:8: the bits dropped from the last partial byte (R38). -/
  residual : BitVec 4
  deriving DecidableEq, Repr

/-- STATUS after reset and after START: 0x0000 (10_state.md R49, R50). -/
def Status.reset : Status :=
  { done := false, no_data := false, src_err := false, orphan := false, ooc := false,
    seq_err := false, cnt_sat := false, residual := 0#4 }

/-- What the host drives on the input ports at one rising edge of `clk` (10_state.md R22). -/
structure PortIn where
  /-- Synchronous reset, active high (70_reset_and_hazards.md R260). -/
  rst : Bool
  /-- The host offers a beat (10_state.md R23). -/
  in_valid : Bool
  /-- The beat word offered (30_encoding.md R80). -/
  in_word : Word10
  /-- The host takes the head byte (10_state.md R23). -/
  out_ready : Bool
  deriving DecidableEq, Repr

/-- An edge with no reset, no beat offered and no pop (60_exceptions.md R234). -/
def PortIn.idle : PortIn :=
  { rst := false, in_valid := false, in_word := 0#10, out_ready := false }

/-- The whole state of the block between two rising edges: every element of 10_state.md R49, the
implementation parameters of 00_scope.md R6, and the model's own fields `inputs`, `delivered` and
`edge`. The two ROMs are constants (10_state.md R26). -/
@[ext]
structure State where
  /-- The implementation parameters (00_scope.md R6); no step writes them (log entry 1). -/
  params : Params
  /-- STATUS (R30). -/
  status : Status
  /-- An I sample is held and waits for its Q sample (R28). -/
  have_i : Bool
  /-- The I sample held (R28). -/
  i_reg : Byte
  /-- The index into `KEY` for the next bitstream bit, an integer 0..12 (R29; log entry 6). -/
  key_idx : Fin 13
  /-- The shift register of the byte being built (R45). -/
  sr : Byte
  /-- How many descrambled bits `sr` holds, an integer 0..7 (R45; log entry 7). -/
  bit_cnt : Fin 8
  /-- Some bit held in `sr` came from an out-of-constellation pair (R45). -/
  byte_taint : Bool
  /-- The output queue, its head first (R46). -/
  outq : List Entry
  /-- CNT_SAMPLES, a counter of `CNT_W` bits (R41; log entry 8). -/
  cnt_samples : Nat
  /-- CNT_PAIRS, a counter of `CNT_W` bits (R42; log entry 8). -/
  cnt_pairs : Nat
  /-- CNT_OOC, a counter of `CNT_W` bits (R43; log entry 8). -/
  cnt_ooc : Nat
  /-- CNT_BYTES, a counter of `CNT_W` bits (R44; log entry 8). -/
  cnt_bytes : Nat
  /-- The MODEL's own: what the host drives at the coming edges, the next edge first (log entry 2). -/
  inputs : List PortIn
  /-- The MODEL's own: what the latest step delivered to the host (44_stream_control.md R194; log entry 3). -/
  delivered : Option Entry
  /-- The MODEL's own: how many rising edges have passed; it only indexes free values (log entry 4). -/
  edge : Nat
  deriving DecidableEq, Repr

/-- The reasons a step stops with a fault: there are none. The block never traps and never stops
(60_exceptions.md R220, R225), and its step function is total (44_stream_control.md R194; log entry 16).
Nobody raises a fault. -/
inductive Fault where
  deriving DecidableEq, Repr

/-- The reasons a step is refused. -/
inductive Refusal where
  /-- An instruction that has no meaning yet. Raised by an arm of `exec` alone, and no arm raises it in
  this model (30_encoding.md R85). It is safe: a refused step proves nothing about the block. -/
  | notModelled (mnemonic : String)
  deriving DecidableEq, Repr

/-- Every state element at its reset value, for a block built with the parameters `p` (10_state.md R49). -/
def State.resetWith (p : Params) : State :=
  { params := p
    status := Status.reset
    have_i := false
    i_reg := 0x00#8
    key_idx := 0
    sr := 0x00#8
    bit_cnt := 0
    byte_taint := false
    outq := []
    cnt_samples := 0
    cnt_pairs := 0
    cnt_ooc := 0
    cnt_bytes := 0
    inputs := []
    delivered := none
    edge := 0 }

/-- The machine right after reset (10_state.md R49), with the spec's default parameters (00_scope.md R6)
and nothing driven by the host yet (log entries 1 and 2). -/
def State.reset : State := State.resetWith Params.default

end Sys2Proof.Machine
end

