-- ==== Sys2Proof/Machine/Flags.lean ====
section
/-! DEFINITION. STATUS as a word and the anomalies it records (10_state.md R30 to R39;
60_exceptions.md R221, R231). -/

namespace Sys2Proof.Machine

/-- The 16-bit word that the port `status` shows (10_state.md R30); bits 7 and 15:12 read 0 in every
state (R39). -/
def Status.word (st : Status) : Word16 :=
  0b0000#4 ++ st.residual ++ 0b0#1 ++ BitVec.ofBool st.cnt_sat ++ BitVec.ofBool st.seq_err
    ++ BitVec.ofBool st.ooc ++ BitVec.ofBool st.orphan ++ BitVec.ofBool st.src_err
    ++ BitVec.ofBool st.no_data ++ BitVec.ofBool st.done

/-- The anomalies of the taxonomy (60_exceptions.md R221). -/
inductive Anomaly where
  /-- NoData, a signal rather than an error (R229). -/
  | noData
  /-- SourceUnavailable (R222). -/
  | sourceUnavailable
  /-- IncompleteTrailingSample (R223). -/
  | incompleteTrailingSample
  /-- OutOfConstellationSymbol (R224). -/
  | outOfConstellationSymbol
  /-- SequenceError (R227). -/
  | sequenceError
  /-- CounterSaturation (R228). -/
  | counterSaturation
  /-- IncompleteTrailingBitGroup (R226). -/
  | incompleteTrailingBitGroup
  deriving DecidableEq, Repr

/-- The code of an anomaly: the STATUS bits that record it, one bit, or the field 8..11 for
IncompleteTrailingBitGroup, whose recorded value is a count (60_exceptions.md R221, R226). -/
def Anomaly.code : Anomaly → List Nat
  | .noData => [1]
  | .sourceUnavailable => [2]
  | .incompleteTrailingSample => [3]
  | .outOfConstellationSymbol => [4]
  | .sequenceError => [5]
  | .counterSaturation => [6]
  | .incompleteTrailingBitGroup => [8, 9, 10, 11]

/-- Whether STATUS records the anomaly (60_exceptions.md R221; RESIDUAL ≠ 0 is the flag, R226). -/
def Status.records (st : Status) : Anomaly → Bool
  | .noData => st.no_data
  | .sourceUnavailable => st.src_err
  | .incompleteTrailingSample => st.orphan
  | .outOfConstellationSymbol => st.ooc
  | .sequenceError => st.seq_err
  | .counterSaturation => st.cnt_sat
  | .incompleteTrailingBitGroup => st.residual != 0#4

/-- The order in which a host that wants one outcome for a frame may look at the anomalies. A
convention for hosts and no hardware behaviour (60_exceptions.md R231). -/
def hostPriority : List Anomaly :=
  [.sourceUnavailable, .noData, .sequenceError, .counterSaturation, .outOfConstellationSymbol,
   .incompleteTrailingSample, .incompleteTrailingBitGroup]

/-- The single outcome that the host convention of 60_exceptions.md R231 picks. -/
def Status.hostOutcome (st : Status) : Option Anomaly := hostPriority.find? st.records

end Sys2Proof.Machine
end

