-- ==== Sys2Proof/Machine/Ops.lean ====
section
/-! DEFINITION. The named operations over the registers of State, each one update of the record. Every
stage and every beat is written over them. The block has no byte-addressed memory (20_memory.md R63),
no general registers (10_state.md R20), and no trap entry and no trap return (60_exceptions.md R225): an
anomaly is recorded in STATUS by these operations and the next beat is handled normally. -/

namespace Sys2Proof.Machine

/-- Write STATUS. No field can be written from outside (10_state.md R30); only the step rules use this. -/
def State.setStatus (s : State) (st : Status) : State := { s with status := st }

/-- Hold an I sample (44_stream_control.md R181). -/
def State.holdI (s : State) (v : Byte) : State := { s with have_i := true, i_reg := v }

/-- Let go of the I sample: `i_reg <- 0x00; have_i <- 0` (44_stream_control.md R181, R184). -/
def State.dropI (s : State) : State := { s with have_i := false, i_reg := 0x00#8 }

/-- The value of a counter of `w` bits after `sat_inc` (10_state.md R40). -/
def satValue (w c : Nat) : Nat := if c = 2 ^ w - 1 then c else c + 1

/-- Whether `sat_inc` sets CNT_SAT: the counter already holds its maximum (10_state.md R37, R40). -/
def satHit (w c : Nat) : Bool := decide (c = 2 ^ w - 1)

/-- STATUS after `sat_inc` of a counter that holds `c` (10_state.md R40). -/
def State.satStatus (s : State) (c : Nat) : Status :=
  { s.status with cnt_sat := s.status.cnt_sat || satHit s.params.cntW c }

/-- `sat_inc(CNT_SAMPLES)` (10_state.md R40, R41). -/
def State.countSample (s : State) : State :=
  { s with cnt_samples := satValue s.params.cntW s.cnt_samples, status := s.satStatus s.cnt_samples }

/-- `sat_inc(CNT_PAIRS)` (10_state.md R40, R42). -/
def State.countPair (s : State) : State :=
  { s with cnt_pairs := satValue s.params.cntW s.cnt_pairs, status := s.satStatus s.cnt_pairs }

/-- `sat_inc(CNT_OOC)` (10_state.md R40, R43). -/
def State.countOoc (s : State) : State :=
  { s with cnt_ooc := satValue s.params.cntW s.cnt_ooc, status := s.satStatus s.cnt_ooc }

/-- `sat_inc(CNT_BYTES)` (10_state.md R40, R44). -/
def State.countByte (s : State) : State :=
  { s with cnt_bytes := satValue s.params.cntW s.cnt_bytes, status := s.satStatus s.cnt_bytes }

/-- `key_idx <- (key_idx + 1) mod 13` (42_descrambler.md R140). -/
def State.advanceKey (s : State) : State := { s with key_idx := s.key_idx + 1 }

/-- `{sr[6:0], d}`: the byte with one bit shifted in at bit 0 (43_reframer.md R160; 00_scope.md R7). -/
def shiftByte (sr : Byte) (d : Bool) : Byte := sr.extractLsb' 0 7 ++ BitVec.ofBool d

/-- The register writes of RF_SHIFT: `sr <- {sr[6:0], d}`, `bit_cnt <- bit_cnt + 1` and
`byte_taint <- byte_taint or t` (43_reframer.md R160). The three bits of `bit_cnt` hold 0 where the rule's
count reaches 8; `State.rfShift` then emits, which writes 0 to them too (log entry 7). -/
def State.shiftIn (s : State) (d t : Bool) : State :=
  { s with
    sr := shiftByte s.sr d
    bit_cnt := s.bit_cnt + 1
    byte_taint := s.byte_taint || t }

/-- `sr <- 0x00; bit_cnt <- 0; byte_taint <- 0` (43_reframer.md R161, R162). -/
def State.clearReframer (s : State) : State :=
  { s with sr := 0x00#8, bit_cnt := 0, byte_taint := false }

/-- `push(outq, e)`: append at the tail (00_scope.md R9). -/
def State.push (s : State) (e : Entry) : State := { s with outq := s.outq ++ [e] }

/-- The frame-clear set: every element of 10_state.md R49 at its reset value, except `outq` and the two
ROMs (R50). -/
def State.frameClear (s : State) : State :=
  { s with
    status := Status.reset
    have_i := false
    i_reg := 0x00#8
    key_idx := 0
    sr := 0x00#8
    bit_cnt := 0
    byte_taint := false
    cnt_samples := 0
    cnt_pairs := 0
    cnt_ooc := 0
    cnt_bytes := 0 }

/-- `POP()`: the head of `outq` is removed and delivered; a pop of an empty queue has no effect
(44_stream_control.md R192, R194). -/
def State.popHead (s : State) : State := { s with outq := s.outq.tail, delivered := s.outq.head? }

/-- One rising edge is taken: the host's record for it is used up, nothing is delivered yet
(44_stream_control.md R194), and the count of edges goes up (log entries 2, 3 and 4). -/
def State.takeEdge (s : State) : State :=
  { s with inputs := s.inputs.tail, delivered := none, edge := s.edge + 1 }

/-- A reset edge: every state element takes its reset value, and entries of `outq` are discarded and
never delivered (70_reset_and_hazards.md R260). The parameters of the build and what the host drives
later stay. -/
def State.resetEdge (s : State) : State :=
  { State.resetWith s.params with inputs := s.inputs, edge := s.edge }

end Sys2Proof.Machine
end

