-- ==== Sys2Proof/Machine/Descrambler.lean ====
section
/-! DEFINITION. The descrambler stage: XOR with the cyclic 13-bit key (42_descrambler.md). -/

namespace Sys2Proof.Machine

/-- The result of one descrambler step at key index `k`: `b XOR KEY[k]` (42_descrambler.md R140). -/
def descBit (k : Fin 13) (b : Bool) : Bool := b ^^ key k

/-- `DESC(b)`: the descrambled bit, and the state with `key_idx` moved on (42_descrambler.md R140). -/
def State.desc (s : State) (b : Bool) : Bool × State := (descBit s.key_idx b, s.advanceKey)

/-- DESC over a bit sequence, from key index `k` (42_descrambler.md R140, R141). -/
def descramble (k : Fin 13) : List Bool → List Bool
  | [] => []
  | b :: bs => descBit k b :: descramble (k + 1) bs

/-- The key nibble `KN(k)`, with `KEY[k]` as its MSB (42_descrambler.md R144). -/
def keyNibble (k : Fin 13) : BitVec 4 :=
  BitVec.ofBool (key k) ++ BitVec.ofBool (key (k + 1)) ++ BitVec.ofBool (key (k + 2))
    ++ BitVec.ofBool (key (k + 3))

end Sys2Proof.Machine
end

