-- ==== Sys2Proof/Machine/Reframer.lean ====
section
/-! DEFINITION. The byte reframer stage: descrambled bits become bytes, MSB first (43_reframer.md). -/

namespace Sys2Proof.Machine

/-- `RF_EMIT()`: push the byte and its taint, count it, clear the reframer (43_reframer.md R161). -/
def State.rfEmit (s : State) : State :=
  ((s.push { byte := s.sr, taint := s.byte_taint }).countByte).clearReframer

/-- `RF_SHIFT(d, t)`: shift one bit in; the eighth bit emits the byte (43_reframer.md R160). -/
def State.rfShift (s : State) (d t : Bool) : State :=
  if s.bit_cnt = 7 then (s.shiftIn d t).rfEmit else s.shiftIn d t

/-- `RF_DROP()`: record how many bits are dropped, and clear the reframer (43_reframer.md R162). -/
def State.rfDrop (s : State) : State :=
  (s.setStatus { s.status with residual := BitVec.ofNat 4 s.bit_cnt.val }).clearReframer

end Sys2Proof.Machine
end

