-- ==== Sys2Proof/Machine/Sample.lean ====
section
/-! DEFINITION. The SAMPLE beat and its pair step (44_stream_control.md R181 to R183), and what SAMPLE, END
and SRCERR do while DONE = 1 (R188). -/

namespace Sys2Proof.Machine

/-- `SEQ`: a beat other than START while DONE = 1 sets SEQ_ERR and changes nothing else
(44_stream_control.md R188; 60_exceptions.md R227). -/
def State.seqError (s : State) : State := s.setStatus { s.status with seq_err := true }

/-- The record of an out-of-constellation pair: `OOC <- 1; sat_inc(CNT_OOC)` (40_demodulator.md R104). -/
def State.recordOoc (s : State) : State := (s.setStatus { s.status with ooc := true }).countOoc

/-- One turn of the pair step's loop: descramble one bit and shift it in (44_stream_control.md R182). -/
def State.bitStep (t : Bool) (s : State) (b : Bool) : State := (s.desc b).2.rfShift (s.desc b).1 t

/-- The pair step's loop over the bits of one symbol, in order (44_stream_control.md R182; 41_bit_assembler.md R123). -/
def State.shiftSymbol (s : State) (sym : Symbol) (t : Bool) : State :=
  (ser sym).foldl (State.bitStep t) s

/-- `PAIR_STEP(I, Q)` (44_stream_control.md R182). -/
def State.pairStep (s : State) (i q : Byte) : State :=
  let (sym, ok) := demod i q
  let counted := s.countPair
  let recorded := if ok then counted else counted.recordOoc
  recorded.shiftSymbol sym (!ok)

/-- SAMPLE while DONE = 0 (44_stream_control.md R181): the I rail is held unchecked, the Q rail completes
the pair. `i_reg` is read before it is cleared (R189). -/
def State.sampleRun (s : State) (v : Byte) : State :=
  let counted := s.countSample
  if counted.have_i then counted.dropI.pairStep counted.i_reg v else counted.holdI v

/-- SAMPLE (44_stream_control.md R180, R181, R188). -/
def execSample (data : Byte) (s : State) : Host.Outcome State Fault Refusal :=
  if s.status.done then .next s.seqError else .next (s.sampleRun data)

end Sys2Proof.Machine
end

