-- ==== Sys2Proof/Machine/Frame.lean ====
section
/-! DEFINITION. The beats that close and open a frame: END, SRCERR and START (44_stream_control.md R184 to
R188). The data of these beats is ignored (30_encoding.md R84). -/

namespace Sys2Proof.Machine

/-- `CLOSE()`, shared by END and SRCERR (44_stream_control.md R184): the odd trailing sample is dropped
and flagged, the partial byte is dropped and its length recorded, DONE is set. -/
def State.close (s : State) : State :=
  let noOrphan := if s.have_i then (s.setStatus { s.status with orphan := true }).dropI else s
  let dropped := noOrphan.rfDrop
  dropped.setStatus { dropped.status with done := true }

/-- END while DONE = 0: `NO_DATA <- (CNT_SAMPLES = 0)`, then CLOSE (44_stream_control.md R185). -/
def State.endRun (s : State) : State :=
  (s.setStatus { s.status with no_data := decide (s.cnt_samples = 0) }).close

/-- SRCERR while DONE = 0: `SRC_ERR <- 1`, then CLOSE; NO_DATA is not written (44_stream_control.md R186). -/
def State.srcErrRun (s : State) : State :=
  (s.setStatus { s.status with src_err := true }).close

/-- END (44_stream_control.md R180, R185, R188). -/
def execEnd (_data : Byte) (s : State) : Host.Outcome State Fault Refusal :=
  if s.status.done then .next s.seqError else .next s.endRun

/-- SRCERR (44_stream_control.md R180, R186, R188). -/
def execSrcErr (_data : Byte) (s : State) : Host.Outcome State Fault Refusal :=
  if s.status.done then .next s.seqError else .next s.srcErrRun

/-- START, in either frame state (44_stream_control.md R187; 10_state.md R50). -/
def execStart (_data : Byte) (s : State) : Host.Outcome State Fault Refusal :=
  .next s.frameClear

end Sys2Proof.Machine
end

