-- ==== Sys2Proof/Machine/Dispatch.lean ====
section
/-! DEFINITION. Dispatch of an accepted beat to its meaning (44_stream_control.md R180). -/

namespace Sys2Proof.Machine

/-- The effect of one accepted beat (44_stream_control.md R180). -/
def exec (i : Instr) (s : State) : Host.Outcome State Fault Refusal :=
  match i with
  | .sample data => Sys2Proof.Machine.execSample data s
  | .endBeat data => Sys2Proof.Machine.execEnd data s
  | .srcErr data => Sys2Proof.Machine.execSrcErr data s
  | .start data => Sys2Proof.Machine.execStart data s

end Sys2Proof.Machine
end

