-- ==== Sys2Proof/Machine/Ports.lean ====
section
/-! DEFINITION. The output ports (10_state.md R22, R23, R25). They are functions of the state, so reading
them has no side effect (R25; 20_memory.md R70). -/

namespace Sys2Proof.Machine

/-- `in_ready`: 1 exactly when `len(outq) < OUT_DEPTH`; the model has no busy cycles (10_state.md R23;
log entry 13). -/
def State.inReady (s : State) : Bool := decide (s.outq.length < s.params.outDepth)

/-- `out_valid`: `len(outq) > 0` (10_state.md R22). -/
def State.outValid (s : State) : Bool := decide (0 < s.outq.length)

/-- `out_byte`: the head byte of `outq`, and an unspecified value while `out_valid = 0` (10_state.md R22;
log entry 4). -/
def State.outByte (s : State) : Byte :=
  match s.outq with
  | e :: _ => e.byte
  | [] => Config.idleOutByte s.edge

/-- `out_taint`: the head taint bit of `outq`, and an unspecified value while `out_valid = 0`
(10_state.md R22; log entry 4). -/
def State.outTaint (s : State) : BitVec 1 :=
  match s.outq with
  | e :: _ => BitVec.ofBool e.taint
  | [] => Config.idleOutTaint s.edge

/-- All output ports of a block whose counters have `w` bits (10_state.md R22). -/
structure PortOut (w : Nat) where
  in_ready : Bool
  out_valid : Bool
  out_byte : Byte
  out_taint : BitVec 1
  status : Word16
  cnt_samples : BitVec w
  cnt_pairs : BitVec w
  cnt_ooc : BitVec w
  cnt_bytes : BitVec w
  deriving DecidableEq, Repr

/-- What the block drives on its output ports (10_state.md R22). STATUS and the counters are the
registers themselves, with no sampling delay (R25). -/
def State.ports (s : State) : PortOut s.params.cntW :=
  { in_ready := s.inReady
    out_valid := s.outValid
    out_byte := s.outByte
    out_taint := s.outTaint
    status := s.status.word
    cnt_samples := BitVec.ofNat _ s.cnt_samples
    cnt_pairs := BitVec.ofNat _ s.cnt_pairs
    cnt_ooc := BitVec.ofNat _ s.cnt_ooc
    cnt_bytes := BitVec.ofNat _ s.cnt_bytes }

end Sys2Proof.Machine
end

