-- ==== Sys2Proof/Machine/Edge.lean ====
section
/-! DEFINITION. One rising edge of `clk`: reset, the output pop, and the acceptance of a beat
(10_state.md R23; 44_stream_control.md R190 to R194; 70_reset_and_hazards.md R260). -/

namespace Sys2Proof.Machine

/-- What the host drives at the next edge: the first record of `inputs`, and nothing at all when the list
is empty (log entry 2). -/
def State.portIn (s : State) : PortIn := s.inputs.headD PortIn.idle

/-- The pop of an edge: done when the host takes the head byte (44_stream_control.md R192, R194). -/
def State.popIf (s : State) (ready : Bool) : State := if ready then s.popHead else s

/-- Whether a beat is accepted at an edge: the host offers one and `len(outq) < OUT_DEPTH` at the START of
the edge, before the pop (10_state.md R23; 44_stream_control.md R193, R194; log entry 12). -/
def State.accepts (s : State) (p : PortIn) : Bool := !p.rst && p.in_valid && s.inReady

/-- The whole step at one edge (44_stream_control.md R194): reset first; else the pop, then the accepted
beat. A beat offered while `in_ready = 0` has no effect at that edge (R190). -/
def State.edgeStep (s : State) (p : PortIn) : Host.Outcome State Fault Refusal :=
  if p.rst then .next s.resetEdge
  else if s.accepts p then exec (decode p.in_word) (s.popIf p.out_ready)
  else .next (s.popIf p.out_ready)

/-- What a host drives at an edge at which it only offers the beat `w` (10_state.md R22). -/
def PortIn.offer (w : Word10) : PortIn :=
  { rst := false, in_valid := true, in_word := w, out_ready := false }

end Sys2Proof.Machine
end

