-- ==== Sys2Proof/Machine/Step.lean ====
section
/-! DEFINITION. The step of the machine, one rising edge of `clk` (44_stream_control.md R194), and the place
where a beat is offered to it. -/

namespace Sys2Proof.Machine

/-- One rising edge: the host's record for it is taken, and the edge has its effect
(44_stream_control.md R194). -/
def step (s : State) : Host.Outcome State Fault Refusal :=
  s.takeEdge.edgeStep s.portIn

/-- `s` with the beat word `w` offered by the host at the very next edge, before everything else it drives.
`in_word` has ten wires (10_state.md R22), so `nbits` decides nothing (log entries 2 and 18). -/
def State.withFetchWord (s : State) (_nbits w : Nat) : State :=
  { s with inputs := PortIn.offer (BitVec.ofNat 10 w) :: s.inputs }

end Sys2Proof.Machine
end

