-- ==== Sys2Proof/Machine/Assembler.lean ====
section
/-! DEFINITION. The beat assembler (30_encoding.md R90 to R94): text lines of beat assembly become beat
words. It is notation for hosts and no part of the block. What the spec leaves open in the notation is in
log entry 20. -/

namespace Sys2Proof.Machine

/-- An operand as it is written: a signed decimal integer, or a hexadecimal pattern (30_encoding.md R90). -/
inductive AsmOperand where
  /-- A signed decimal integer. -/
  | dec (v : Int)
  /-- A pattern written `0xHH`. -/
  | hex (p : Nat)
  deriving DecidableEq, Repr

/-- The mnemonics: the four beats (30_encoding.md R90) and the two pseudo-instructions (R92, R93). -/
inductive AsmMnemonic where
  | sample
  | endBeat
  | srcErr
  | start
  | pair
  | sym
  deriving DecidableEq, Repr

/-- Why the assembler refuses a line (30_encoding.md R91, R93). -/
inductive AsmError where
  /-- A sample value outside -128..127 (R91). -/
  | valueOutOfRange
  /-- A pattern over 0xFF (R91). -/
  | patternTooWide
  /-- An operand on END, SRCERR or START (R91). -/
  | operandNotAllowed
  /-- Any other mnemonic (R91). -/
  | unknownMnemonic
  /-- A symbol outside 0..15 (R93). -/
  | symbolOutOfRange
  /-- An operand that is no number, or a wrong number of operands (DESIGN CHOICE, log entry 20). -/
  | malformedOperands
  deriving DecidableEq, Repr

/-- The sample pattern that an operand stands for (30_encoding.md R90, R91). An out-of-constellation value
is not refused. -/
def AsmOperand.sample : AsmOperand → Except AsmError Byte
  | .dec v => if -128 ≤ v ∧ v ≤ 127 then .ok (samplePattern v) else .error .valueOutOfRange
  | .hex p => if p ≤ 0xFF then .ok (BitVec.ofNat 8 p) else .error .patternTooWide

/-- The value of an operand as an integer. -/
def AsmOperand.value : AsmOperand → Int
  | .dec v => v
  | .hex p => (p : Int)

/-- The words of `PAIR i, q`: `SAMPLE i` then `SAMPLE q` (30_encoding.md R92). -/
def assemblePair (i q : AsmOperand) : Except AsmError (List Word10) :=
  match i.sample, q.sample with
  | .ok vi, .ok vq => .ok [encode (.sample vi), encode (.sample vq)]
  | .error e, _ => .error e
  | .ok _, .error e => .error e

/-- The words of `SYM s`: `PAIR I(s), Q(s)` (30_encoding.md R93). -/
def assembleSym (s : AsmOperand) : Except AsmError (List Word10) :=
  if 0 ≤ s.value ∧ s.value ≤ 15 then
    assemblePair (.dec (symLevels (BitVec.ofInt 4 s.value)).1) (.dec (symLevels (BitVec.ofInt 4 s.value)).2)
  else .error .symbolOutOfRange

/-- The words of a bare beat, which takes no operand (30_encoding.md R90, R91). -/
def assembleBare (i : Instr) : List AsmOperand → Except AsmError (List Word10)
  | [] => .ok [encode i]
  | _ :: _ => .error .operandNotAllowed

/-- The words of one line, given its mnemonic and operands (30_encoding.md R90 to R93). -/
def assembleLine (m : AsmMnemonic) (ops : List AsmOperand) : Except AsmError (List Word10) :=
  match m, ops with
  | .sample, [v] => v.sample.map fun p => [encode (.sample p)]
  | .pair, [i, q] => assemblePair i q
  | .sym, [s] => assembleSym s
  | .endBeat, _ => assembleBare (.endBeat 0x00#8) ops
  | .srcErr, _ => assembleBare (.srcErr 0x00#8) ops
  | .start, _ => assembleBare (.start 0x00#8) ops
  | _, _ => .error .malformedOperands

/-- White space within a line (DESIGN CHOICE, log entry 20). -/
def isBlankChar (c : Char) : Bool := c == ' ' || c == '\t' || c == '\r'

/-- A line without leading and trailing white space. -/
def trimLine (cs : List Char) : List Char :=
  ((cs.dropWhile isBlankChar).reverse.dropWhile isBlankChar).reverse

/-- A line without its comment, which runs from `;` to the end of the line (30_encoding.md R90). -/
def cutComment (cs : List Char) : List Char := cs.takeWhile (· != ';')

/-- The value of a hexadecimal digit, in either case. -/
def hexDigit? (c : Char) : Option Nat :=
  if '0' ≤ c ∧ c ≤ '9' then some (c.toNat - 48)
  else if 'A' ≤ c ∧ c ≤ 'F' then some (c.toNat - 55)
  else if 'a' ≤ c ∧ c ≤ 'f' then some (c.toNat - 87)
  else none

/-- A number in a base, from its digits, the most significant first; none when a digit is not one of the
base or when there is no digit. -/
def readNat (base : Nat) (cs : List Char) : Option Nat :=
  if cs.isEmpty then none
  else cs.foldl (fun acc c =>
    match acc, hexDigit? c with
    | some n, some d => if d < base then some (n * base + d) else none
    | _, _ => none) (some 0)

/-- One operand: `0x` and hexadecimal digits, or decimal digits after an optional minus sign
(30_encoding.md R90). -/
def readOperand (cs : List Char) : Option AsmOperand :=
  match cs with
  | '0' :: 'x' :: ds => (readNat 16 ds).map AsmOperand.hex
  | '0' :: 'X' :: ds => (readNat 16 ds).map AsmOperand.hex
  | '-' :: ds => (readNat 10 ds).map fun n => AsmOperand.dec (-(n : Int))
  | ds => (readNat 10 ds).map fun n => AsmOperand.dec (n : Int)

/-- The parts of a text between commas. -/
def splitCommas : List Char → List (List Char)
  | [] => [[]]
  | c :: cs =>
    match splitCommas cs with
    | [] => [[c]]
    | part :: parts => if c == ',' then [] :: part :: parts else (c :: part) :: parts

/-- The operands of a line; none at all when nothing follows the mnemonic. -/
def readOperands (cs : List Char) : Option (List AsmOperand) :=
  if (trimLine cs).isEmpty then some []
  else (splitCommas cs).mapM fun part => readOperand (trimLine part)

/-- A mnemonic, case-insensitive (30_encoding.md R90). -/
def readMnemonic (cs : List Char) : Option AsmMnemonic :=
  match cs.map Char.toUpper with
  | ['S', 'A', 'M', 'P', 'L', 'E'] => some .sample
  | ['E', 'N', 'D'] => some .endBeat
  | ['S', 'R', 'C', 'E', 'R', 'R'] => some .srcErr
  | ['S', 'T', 'A', 'R', 'T'] => some .start
  | ['P', 'A', 'I', 'R'] => some .pair
  | ['S', 'Y', 'M'] => some .sym
  | _ => none

/-- Whether a mnemonic takes operands. -/
def AsmMnemonic.takesOperands : AsmMnemonic → Bool
  | .sample => true
  | .pair => true
  | .sym => true
  | .endBeat => false
  | .srcErr => false
  | .start => false

/-- The words of one text line: none for a line that holds only a comment or white space, else what its
mnemonic and operands assemble to (30_encoding.md R90 to R93). -/
def assembleText (line : List Char) : Except AsmError (List Word10) :=
  let text := trimLine (cutComment line)
  if text.isEmpty then .ok []
  else
    match readMnemonic (text.takeWhile fun c => !isBlankChar c) with
    | none => .error .unknownMnemonic
    | some m =>
      let rest := text.dropWhile fun c => !isBlankChar c
      match readOperands rest with
      | some ops => assembleLine m ops
      | none => .error (if m.takesOperands then .malformedOperands else .operandNotAllowed)

/-- A program, one text line for each beat or pseudo-instruction, from line number `n` on. A refusal names
the line (30_encoding.md R90, R91). -/
def assembleFrom (n : Nat) : List (List Char) → Except (Nat × AsmError) (List Word10)
  | [] => .ok []
  | line :: rest =>
    match assembleText line, assembleFrom (n + 1) rest with
    | .error e, _ => .error (n, e)
    | .ok _, .error e => .error e
    | .ok ws, .ok more => .ok (ws ++ more)

/-- A program, its first line numbered 1 (30_encoding.md R90, R91). -/
def assemble (lines : List (List Char)) : Except (Nat × AsmError) (List Word10) := assembleFrom 1 lines

/-- One hexadecimal digit, upper case. -/
def hexChar (n : BitVec 4) : Char :=
  Char.ofNat (if n.toNat < 10 then 48 + n.toNat else 55 + n.toNat)

/-- The object form of a word: `0xNNN`, three hexadecimal digits (30_encoding.md R90). -/
def objectForm (w : Word10) : List Char :=
  ['0', 'x', hexChar ((w.extractLsb' 8 2).zeroExtend 4), hexChar (w.extractLsb' 4 4), hexChar (w.extractLsb' 0 4)]

end Sys2Proof.Machine
end

