-- ==== Sys2Proof/Machine/Lanes.lean ====
section
/-! DEFINITION. The 4-lane form of the pair step's loop (42_descrambler.md R144; 41_bit_assembler.md R125): a
whole nibble is descrambled by one XOR and shifted in at once. It is what a 4-lane block builds; a
statement compares it with the serial form that the meanings use. -/

namespace Sys2Proof.Machine

/-- The key index after the four bits of a pair: `(k + 4) mod 13` (42_descrambler.md R144). -/
def State.advanceKeyByPair (s : State) : State := { s with key_idx := s.key_idx + 4 }

/-- The descrambled nibble of a symbol at the present key index: `sym XOR KN(k)` (42_descrambler.md R144). -/
def State.laneNibble (s : State) (sym : Symbol) : BitVec 4 := sym ^^^ keyNibble s.key_idx

/-- `{sr[3:0], nibble}`: the byte with four bits shifted in at once (43_reframer.md R164; 20_memory.md R67). -/
def shiftNibble (sr : Byte) (nibble : BitVec 4) : Byte := sr.extractLsb' 0 4 ++ nibble

/-- The first nibble of a byte enters a reframer that holds no bit (43_reframer.md R164). -/
def State.laneFirst (s : State) (nibble : BitVec 4) (t : Bool) : State :=
  { s with
    sr := shiftNibble s.sr nibble
    bit_cnt := 4
    byte_taint := s.byte_taint || t }

/-- The second nibble of a byte enters a reframer that holds four bits, and the byte is emitted
(43_reframer.md R164). -/
def State.laneSecond (s : State) (nibble : BitVec 4) (t : Bool) : State :=
  { s with
    sr := shiftNibble s.sr nibble
    byte_taint := s.byte_taint || t }.rfEmit

/-- The 4-lane form of the loop over one symbol (42_descrambler.md R144), for a reframer at a nibble
boundary (41_bit_assembler.md R124). -/
def State.shiftSymbolLanes (s : State) (sym : Symbol) (t : Bool) : State :=
  if s.bit_cnt = 0 then s.advanceKeyByPair.laneFirst (s.laneNibble sym) t
  else s.advanceKeyByPair.laneSecond (s.laneNibble sym) t

end Sys2Proof.Machine
end

