-- ==== Sys2Proof/Machine/Reference.lean ====
section
/-! DEFINITION. The whole-frame laws of the spec as one batch computation over a capture, with no key
index register, no shift register and no queue: pairs, symbols, bitstream, descrambled bitstream, bytes
(20_memory.md R64 to R66; 41_bit_assembler.md R121; 42_descrambler.md R141; 43_reframer.md R163, R165).
Statements compare the machine's beats with it. -/

namespace Sys2Proof.Machine

/-- The pairs of a frame: samples 2m and 2m+1 form pair m, an odd trailing sample forms none
(20_memory.md R64, R68). -/
def framePairs : List Byte → List (Byte × Byte)
  | i :: q :: rest => (i, q) :: framePairs rest
  | _ => []

/-- The frame's bitstream, each bit with the taint of its pair (41_bit_assembler.md R121; 43_reframer.md R163). -/
def frameBits (samples : List Byte) : List (Bool × Bool) :=
  (framePairs samples).flatMap fun p => (ser (demod p.1 p.2).1).map fun b => (b, !(demod p.1 p.2).2)

/-- `KEY[i mod 13]`, the key bit of bitstream bit `i` (42_descrambler.md R141). -/
def cyclicKey (i : Nat) : Bool := key ⟨i % 13, Nat.mod_lt i (by decide)⟩

/-- The descrambled bitstream: bit `i` XOR `KEY[i mod 13]`, `i` from 0 at the start of the frame
(42_descrambler.md R141). -/
def frameDescrambled (samples : List Byte) : List (Bool × Bool) :=
  (frameBits samples).zipIdx.map fun (b, i) => (b.1 ^^ cyclicKey i, b.2)

/-- The byte of eight bits, the first in stream order its MSB: `Σ bit_j * 2^(7-j)` (20_memory.md R66;
43_reframer.md R161). -/
def byteOfBits (b0 b1 b2 b3 b4 b5 b6 b7 : Bool) : Byte :=
  BitVec.ofNat 8 (b0.toNat * 128 + b1.toNat * 64 + b2.toNat * 32 + b3.toNat * 16 + b4.toNat * 8
    + b5.toNat * 4 + b6.toNat * 2 + b7.toNat)

/-- Byte `n` of a bitstream: bits `8n` to `8n+7`, tainted when one of them is (20_memory.md R66, R69;
43_reframer.md R163). It is used only where the stream has all eight bits. -/
def groupEntry (bits : List (Bool × Bool)) (n : Nat) : Entry :=
  let bit (j : Nat) : Bool × Bool := bits.getD (8 * n + j) (false, false)
  { byte := byteOfBits (bit 0).1 (bit 1).1 (bit 2).1 (bit 3).1 (bit 4).1 (bit 5).1 (bit 6).1 (bit 7).1
    taint := (bit 0).2 || (bit 1).2 || (bit 2).2 || (bit 3).2 || (bit 4).2 || (bit 5).2 || (bit 6).2
      || (bit 7).2 }

/-- The whole groups of eight bits as output entries; a trailing group of fewer bits gives none
(20_memory.md R69; 43_reframer.md R162, R163). -/
def groupBytes (bits : List (Bool × Bool)) : List Entry :=
  (List.range (bits.length / 8)).map (groupEntry bits)

/-- The output entries of a frame that holds these samples (43_reframer.md R165; 60_exceptions.md R241). -/
def frameEntries (samples : List Byte) : List Entry := groupBytes (frameDescrambled samples)

/-- How many pairs of a frame are out of constellation (10_state.md R43). -/
def framePairsOoc (samples : List Byte) : Nat :=
  ((framePairs samples).filter fun p => !(demod p.1 p.2).2).length

/-- The beats of a host that follows the source: START, one SAMPLE for each capture byte in file order, END
(60_exceptions.md R241). `d` and `d'` are the data of START and END, which may be anything (30_encoding.md R84). -/
def captureBeats (d : Byte) (samples : List Byte) (d' : Byte) : List Instr :=
  Instr.start d :: samples.map Instr.sample ++ [Instr.endBeat d']

/-- The beats of a host whose capture cannot be read: START, then SRCERR in place of the samples and END
(60_exceptions.md R241). `d` and `d'` are the data of START and SRCERR, which may be anything
(30_encoding.md R84). -/
def unavailableBeats (d d' : Byte) : List Instr := [Instr.start d, Instr.srcErr d']

end Sys2Proof.Machine
end

