-- ==== Sys2Proof/WellFormed.lean ====
section
/-! DEFINITION. Well-formedness of instructions and of implementation parameters. -/

namespace Sys2Proof

/-- Every beat is well formed: no beat word is illegal, reserved, a hint or custom, and the data of a
beat may hold any value (30_encoding.md R84, R85). -/
def Instr.wellFormed : Instr → Bool
  | .sample _ => true
  | .endBeat _ => true
  | .srcErr _ => true
  | .start _ => true

/-- `OUT_DEPTH` is an integer of at least 1 and `CNT_W` one of at least 4 (00_scope.md R6). -/
def Params.wellFormed (p : Params) : Bool :=
  decide (1 ≤ p.outDepth) && decide (4 ≤ p.cntW)

end Sys2Proof
end

