-- ==== Sys2Proof/Safety.lean ====
section
/-! DEFINITION. What holds of the block between steps (10_state.md R51), what a run delivers, when a frame's
run is over (44_stream_control.md R195), and what the host owes (10_state.md R24). -/

namespace Sys2Proof.Machine

/-- The invariants that hold between steps (10_state.md R51, with R28, R33, R35, R36, R38, R39 and R45). -/
structure State.Inv (s : State) : Prop where
  /-- The build's parameters are legal (00_scope.md R6). -/
  params_legal : s.params.wellFormed = true
  /-- `bit_cnt` is 0 or 4 (R51.2; 41_bit_assembler.md R124). -/
  nibble_aligned : s.bit_cnt = 0 ∨ s.bit_cnt = 4
  /-- `len(outq) <= OUT_DEPTH` (R51.3). -/
  queue_bounded : s.outq.length ≤ s.params.outDepth
  /-- `have_i = 0` implies `i_reg = 0x00` (R28, R51.4). -/
  rail_clear : s.have_i = false → s.i_reg = 0x00#8
  /-- A reframer that holds no bit is clear: every rule that brings `bit_cnt` to 0 clears it (R45, R49). -/
  reframer_clear : s.bit_cnt = 0 → s.sr = 0x00#8 ∧ s.byte_taint = false
  /-- DONE = 1 implies that no I sample and no partial byte is held (R51.5). -/
  done_clear : s.status.done = true → s.have_i = false ∧ s.bit_cnt = 0 ∧ s.sr = 0x00#8 ∧ s.byte_taint = false
  /-- NO_DATA, SRC_ERR (R51.6), ORPHAN, SEQ_ERR and a RESIDUAL are recorded only while DONE = 1 (R34, R36, R38). -/
  closed_flags : s.status.no_data = true ∨ s.status.src_err = true ∨ s.status.orphan = true
      ∨ s.status.seq_err = true ∨ s.status.residual ≠ 0#4 → s.status.done = true
  /-- NO_DATA and SRC_ERR are never both 1 (R33). -/
  no_data_excludes_src_err : ¬ (s.status.no_data = true ∧ s.status.src_err = true)
  /-- RESIDUAL is 0 or 4 (R38). -/
  residual_legal : s.status.residual = 0#4 ∨ s.status.residual = 4#4
  /-- OOC = 1 exactly when CNT_OOC > 0 (R35). -/
  ooc_counted : s.status.ooc = true ↔ 0 < s.cnt_ooc
  /-- Each counter fits its `CNT_W` bits (R41 to R44). -/
  counters_fit : s.cnt_samples < 2 ^ s.params.cntW ∧ s.cnt_pairs < 2 ^ s.params.cntW
      ∧ s.cnt_ooc < 2 ^ s.params.cntW ∧ s.cnt_bytes < 2 ^ s.params.cntW
  /-- CNT_SAMPLES counts the most, so no counter saturates before it (R37, R40 to R44). -/
  saturation : s.status.cnt_sat = true → s.cnt_samples = 2 ^ s.params.cntW - 1
  /-- Unless CNT_SAT = 1, an out-of-constellation pair is one of the pairs counted (R42, R43). -/
  ooc_among_pairs : s.status.cnt_sat = false → s.cnt_ooc ≤ s.cnt_pairs
  /-- Unless CNT_SAT = 1, CNT_SAMPLES is odd exactly when a sample waits for its pair or was dropped at
  the close (R48; 60_exceptions.md R223). -/
  samples_parity : s.status.cnt_sat = false →
      (s.cnt_samples % 2 = 1 ↔ (s.have_i = true ∨ s.status.orphan = true))
  /-- Unless CNT_SAT = 1, the counters and the stream position agree (R51.7). -/
  counting : s.status.cnt_sat = false →
      s.cnt_pairs = s.cnt_samples / 2 ∧ s.cnt_bytes = 4 * s.cnt_pairs / 8
      ∧ s.key_idx.val = 4 * s.cnt_pairs % 13
      ∧ (s.status.done = false → s.bit_cnt.val = 4 * s.cnt_pairs % 8)
      ∧ (s.status.done = true → s.status.residual.toNat = 4 * s.cnt_pairs % 8)

/-- The effect of a list of accepted beats, in order (20_memory.md R71). -/
def execAll : List Instr → State → Host.Outcome State Fault Refusal
  | [], s => .next s
  | i :: rest, s =>
    match exec i s with
    | .next t => execAll rest t
    | .fault f => .fault f
    | .refused r => .refused r

/-- The beat that the next edge accepts, if it accepts one (10_state.md R23). -/
def State.acceptedNow (s : State) : Option Instr :=
  if s.accepts s.portIn then some (decode s.portIn.in_word) else none

/-- The beats that `k` edges accept, in order. -/
def acceptedBeats : Nat → State → List Instr
  | 0, _ => []
  | k + 1, s =>
    s.acceptedNow.toList ++
      match step s with
      | .next t => acceptedBeats k t
      | _ => []

/-- The entries that `k` edges deliver to the host, in order (44_stream_control.md R194). -/
def deliveredEntries : Nat → State → List Entry
  | 0, _ => []
  | k + 1, s =>
    match step s with
    | .next t => t.delivered.toList ++ deliveredEntries k t
    | _ => []

/-- A frame's run is over: DONE = 1 and `outq` is empty (44_stream_control.md R195). -/
def State.runOver (s : State) : Bool := s.status.done && s.outq.isEmpty

/-- Some of the next `k` edges is a reset edge. -/
def State.resetWithin (s : State) (k : Nat) : Bool := (s.inputs.take k).any (·.rst)

/-- Some of the next `k` edges is one at which the host takes a byte. -/
def State.popWithin (s : State) (k : Nat) : Bool := (s.inputs.take k).any (·.out_ready)

/-- The host's one duty over the next `k` edges: a beat offered and not accepted is offered again,
unchanged, at the next edge (10_state.md R24; 44_stream_control.md R194; 70_reset_and_hazards.md R271).
DESIGN CHOICE (log entry 22), safe: the duty does not bind across a reset edge, that is, after an edge with
`rst = 1` the host may withdraw or change the word it offered there. R24 and R271 do not speak of reset. -/
def State.hostHolds : Nat → State → Bool
  | 0, _ => true
  | k + 1, s =>
    match step s with
    | .next t =>
      (!(s.portIn.in_valid && !s.portIn.rst && !s.inReady)
        || (t.portIn.in_valid && t.portIn.in_word == s.portIn.in_word)) && State.hostHolds k t
    | _ => false

/-- Everything a beat can change except the queue: two states that agree here give the same report and
the same later bytes (20_memory.md R72). -/
def State.sameButQueue (s t : State) : Bool :=
  decide ({ s with outq := [], inputs := [], delivered := none, edge := 0 }
    = { t with outq := [], inputs := [], delivered := none, edge := 0 })

end Sys2Proof.Machine
end

