-- ==== Sys2Proof/Certificates/Slice0/Obligations.lean ====
section
/-! DEFINITION. The statements about the block, each `def Obligations.<Name> : Prop`, from the numbered rules of
spec/. OBLIGATIONS.json lists them. Nothing here is proved. -/

open Sys2Proof Sys2Proof.Machine

/-! ## Encoding -/

/-- Decode and encode agree on every beat with every data value (30_encoding.md R80, R82), and the
opcode-table reading of the same bits gives the same beat. -/
def Obligations.DecodeInvertsEncode : Prop :=
  ∀ i : Instr, i.wellFormed = true →
    decode (encode i) = i ∧ decodeTableWord 16 (encode i).toNat = some i

/-- Every beat word is the word of the beat it decodes to: no bit of a word is lost (30_encoding.md R80, R82). -/
def Obligations.EncodeInvertsDecode : Prop :=
  ∀ w : Word10, encode (decode w) = w ∧ (decode w).wellFormed = true

/-- The four rows of 30_encoding.md R82: a word that agrees with a row's match under its mask decodes to the
row's beat, with the low eight bits as data. -/
def Obligations.EachMatchRowDecodesToItsBeat : Prop :=
  ∀ w : Word10,
    (w &&& 0x300#10 = 0x000#10 → decode w = .sample (w.setWidth 8))
    ∧ (w &&& 0x300#10 = 0x100#10 → decode w = .endBeat (w.setWidth 8))
    ∧ (w &&& 0x300#10 = 0x200#10 → decode w = .srcErr (w.setWidth 8))
    ∧ (w &&& 0x300#10 = 0x300#10 → decode w = .start (w.setWidth 8))

/-- The example words of 30_encoding.md R94 decode to the beats they stand for, and the example lines
assemble to them. -/
def Obligations.ExampleWordsDecode : Prop :=
  decode 0x0FD#10 = .sample (samplePattern (-3)) ∧ decode 0x0FF#10 = .sample (samplePattern (-1))
  ∧ decode 0x001#10 = .sample (samplePattern 1) ∧ decode 0x003#10 = .sample (samplePattern 3)
  ∧ decode 0x000#10 = .sample (samplePattern 0) ∧ decode 0x07F#10 = .sample (samplePattern 127)
  ∧ decode 0x080#10 = .sample (samplePattern (-128))
  ∧ decode 0x100#10 = .endBeat 0x00#8 ∧ decode 0x200#10 = .srcErr 0x00#8 ∧ decode 0x300#10 = .start 0x00#8
  ∧ assembleLine .sample [.dec (-3)] = .ok [0x0FD#10] ∧ assembleLine .sample [.dec (-1)] = .ok [0x0FF#10]
  ∧ assembleLine .sample [.dec 1] = .ok [0x001#10] ∧ assembleLine .sample [.dec 3] = .ok [0x003#10]
  ∧ assembleLine .sample [.dec 0] = .ok [0x000#10] ∧ assembleLine .sample [.dec 127] = .ok [0x07F#10]
  ∧ assembleLine .sample [.dec (-128)] = .ok [0x080#10]
  ∧ assembleLine .endBeat [] = .ok [0x100#10] ∧ assembleLine .srcErr [] = .ok [0x200#10]
  ∧ assembleLine .start [] = .ok [0x300#10]

/-- The data of END, SRCERR and START has no effect, no value of it is refused, and an assembler writes
0x00 (30_encoding.md R84). -/
def Obligations.ClosingAndStartDataIsIgnored : Prop :=
  (∀ (d : Byte) (s : State),
    exec (.endBeat d) s = exec (.endBeat 0x00#8) s ∧ exec (.srcErr d) s = exec (.srcErr 0x00#8) s
    ∧ exec (.start d) s = exec (.start 0x00#8) s)
  ∧ (∀ d : Byte,
    decodeNat (0x100 + d.toNat) = .ok (.endBeat d) ∧ decodeNat (0x200 + d.toNat) = .ok (.srcErr d)
    ∧ decodeNat (0x300 + d.toNat) = .ok (.start d))
  ∧ assembleLine .endBeat [] = .ok [0x100#10] ∧ assembleLine .srcErr [] = .ok [0x200#10]
  ∧ assembleLine .start [] = .ok [0x300#10]

/-! ## One rising edge -/

/-- When the host offers a beat word at the next edge and `len(outq) < OUT_DEPTH` at its start, the step is the
effect of the beat that the word decodes to, after the pop the host asks for (44_stream_control.md R193,
R194). The host's record of the edge is used up and the edge is counted (log entries 2 to 4). -/
def Obligations.StepRunsTheDecodedBeat : Prop :=
  ∀ (s : State) (p : PortIn) (rest : List PortIn) (i : Instr),
    s.inputs = p :: rest → p.rst = false → p.in_valid = true → s.outq.length < s.params.outDepth →
    decode p.in_word = i → i.wellFormed = true →
    step s = exec i { s with
      inputs := rest
      edge := s.edge + 1
      outq := if p.out_ready then s.outq.tail else s.outq
      delivered := if p.out_ready then s.outq.head? else none }

/-- The beat word that `withFetchWord` places is offered at the very next edge and, with room in the queue,
runs there (the model's interface, log entries 2 and 18). -/
def Obligations.PlacedWordRunsNext : Prop :=
  ∀ (s : State) (nbits w : Nat) (i : Instr),
    s.outq.length < s.params.outDepth → decodeTableWord nbits w = some i →
    step (s.withFetchWord nbits w) = exec i { s with edge := s.edge + 1, delivered := none }

/-- While `outq` is full no beat is accepted, whatever its kind: at an edge without reset nothing but the pop
happens (10_state.md R23; 44_stream_control.md R190). -/
def Obligations.FullQueueAcceptsNoBeat : Prop :=
  ∀ (s : State) (p : PortIn) (rest : List PortIn),
    s.inputs = p :: rest → p.rst = false → s.params.outDepth ≤ s.outq.length →
    s.ports.in_ready = false ∧ step s = .next { s with
      inputs := rest
      edge := s.edge + 1
      outq := if p.out_ready then s.outq.tail else s.outq
      delivered := if p.out_ready then s.outq.head? else none }

/-- The step function of 44_stream_control.md R194, as it stands there: reset first; else the pop, then the beat if
there is room at the start of the edge; and it always answers a next state. The host's record of the edge is
used up and the edge is counted (log entries 2 to 4). -/
def Obligations.StepIsTheStepFunction : Prop :=
  ∀ (s : State) (p : PortIn) (rest : List PortIn), s.inputs = p :: rest →
    (step s =
      if p.rst then .next { State.resetWith s.params with inputs := rest, edge := s.edge + 1 }
      else
        let popped : State := { s with
          inputs := rest
          edge := s.edge + 1
          outq := if p.out_ready = true ∧ 0 < s.outq.length then s.outq.tail else s.outq
          delivered := if p.out_ready = true ∧ 0 < s.outq.length then s.outq.head? else none }
        if p.in_valid = true ∧ s.outq.length < s.params.outDepth then exec (decode p.in_word) popped
        else .next popped)
    ∧ ∃ t : State, step s = .next t

/-- An output pop (44_stream_control.md R192): the head is on `out_byte` and `out_taint` before the edge, it is
delivered and removed, and nothing else of the block changes, except by a beat accepted at the same edge,
which comes after the pop. -/
def Obligations.PopDeliversTheHead : Prop :=
  ∀ (s : State) (p : PortIn) (rest : List PortIn) (e : Entry) (q : List Entry),
    s.inputs = p :: rest → p.rst = false → p.out_ready = true → s.outq = e :: q →
    s.outByte = e.byte ∧ s.outTaint = BitVec.ofBool e.taint
    ∧ step s =
      (if p.in_valid = true ∧ s.outq.length < s.params.outDepth then
        exec (decode p.in_word) { s with inputs := rest, edge := s.edge + 1, outq := q, delivered := some e }
      else .next { s with inputs := rest, edge := s.edge + 1, outq := q, delivered := some e })
    ∧ ∃ t : State, step s = .next t ∧ t.delivered = some e

/-- A pop asked for while `outq` is empty has no effect (44_stream_control.md R194). -/
def Obligations.PopOfEmptyQueueHasNoEffect : Prop :=
  ∀ (s : State) (p : PortIn) (rest : List PortIn),
    s.inputs = p :: rest → p.rst = false → p.in_valid = false → s.outq = [] →
    step s = .next { s with inputs := rest, edge := s.edge + 1, delivered := none }

/-- With no reset, beat or pop at an edge the block keeps its state (60_exceptions.md R234), whatever word stands
on `in_word`. An empty list of host inputs means such an edge too (the model's choice, log entry 2). -/
def Obligations.IdleEdgeKeepsTheState : Prop :=
  ∀ s : State, s.portIn.rst = false → s.portIn.in_valid = false → s.portIn.out_ready = false →
    step s = .next { s with inputs := s.inputs.tail, edge := s.edge + 1, delivered := none }

/-- A reset edge: every element takes its reset value, nothing is accepted, popped or delivered, whatever
the host drives beside `rst` (70_reset_and_hazards.md R260). The build's parameters and the host's later
inputs stay (log entries 1 and 2). -/
def Obligations.ResetEdgeResetsEverything : Prop :=
  ∀ (s : State) (p : PortIn) (rest : List PortIn),
    s.inputs = p :: rest → p.rst = true →
    step s = .next { State.resetWith s.params with inputs := rest, edge := s.edge + 1 }

/-- No beat and no edge ever stops the block: `exec` and `step` answer a next state in every state, reached or not
(44_stream_control.md R180, R194; 60_exceptions.md R220). -/
def Obligations.EveryStepHasASuccessor : Prop :=
  (∀ (i : Instr) (s : State), ∃ t : State, exec i s = .next t) ∧ ∀ s : State, ∃ t : State, step s = .next t

/-- A full queue blocks for as long as the host neither pops nor resets: every such run leaves all state
as it was (44_stream_control.md R190; 70_reset_and_hazards.md R270, R275). -/
def Obligations.UnpoppedFullQueueBlocksForEver : Prop :=
  ∀ (k : Nat) (s : State),
    s.params.outDepth ≤ s.outq.length → s.resetWithin k = false → s.popWithin k = false →
    Host.Core.run core k s = .next { s with
      inputs := s.inputs.drop k
      edge := s.edge + k
      delivered := if k = 0 then s.delivered else none }

/-- A pop lifts the hold: a beat held over a full queue is accepted at the edge after the pop
(44_stream_control.md R190; log entry 12). -/
def Obligations.PopLiftsTheHold : Prop :=
  ∀ (s : State) (p p' : PortIn) (rest : List PortIn),
    s.params.wellFormed = true → s.outq.length = s.params.outDepth → s.inputs = p :: p' :: rest →
    p.rst = false → p.out_ready = true → p'.rst = false → p'.in_valid = true → p'.out_ready = false →
    Host.Core.run core 2 s = exec (decode p'.in_word) { s with
      inputs := rest
      edge := s.edge + 2
      outq := s.outq.tail
      delivered := none }

/-- Under a host that holds an offered word until it is accepted, the first beat accepted is the word
offered at the start (10_state.md R24), over edges without reset. That the duty does not bind across a reset
edge is the model's choice (log entry 22), on which this statement does not rest. -/
def Obligations.HeldWordIsTheBeatAccepted : Prop :=
  ∀ (k : Nat) (s : State),
    s.hostHolds k = true → s.resetWithin k = false → s.portIn.in_valid = true →
    (acceptedBeats k s = [] ∨ ∃ later, acceptedBeats k s = decode s.portIn.in_word :: later)

/-! ## Reset and ports -/

/-- The reset value of every state element, for every build with legal parameters (10_state.md R49), and the
constant contents of the two ROMs (20_memory.md R60, R62). -/
def Obligations.ResetValues : Prop :=
  State.reset = State.resetWith Params.default
  ∧ ∀ p : Params, p.wellFormed = true →
    (State.resetWith p).status.word = 0x0000#16 ∧ (State.resetWith p).status.done = false
    ∧ (State.resetWith p).have_i = false ∧ (State.resetWith p).i_reg = 0x00#8
    ∧ (State.resetWith p).key_idx = 0
    ∧ (State.resetWith p).sr = 0x00#8 ∧ (State.resetWith p).bit_cnt = 0
    ∧ (State.resetWith p).byte_taint = false ∧ (State.resetWith p).outq = []
    ∧ (State.resetWith p).cnt_samples = 0 ∧ (State.resetWith p).cnt_pairs = 0
    ∧ (State.resetWith p).cnt_ooc = 0 ∧ (State.resetWith p).cnt_bytes = 0
    ∧ (State.resetWith p).ports.in_ready = true ∧ (State.resetWith p).ports.out_valid = false
    ∧ romTable.toList = [0, 1, 2, 3, 4, 5, 6, 7, 12, 13, 14, 15, 8, 9, 10, 11]
    ∧ keyTable.toList.map Bool.toNat = [1, 0, 1, 1, 1, 0, 0, 0, 1, 0, 1, 0, 0]

/-- STATUS shows each field at its bits, and the reserved bits 7 and 15:12 read 0 in every state
(10_state.md R30, R39). -/
def Obligations.StatusWordLayout : Prop :=
  ∀ s : State,
    s.ports.status.getLsbD 0 = s.status.done ∧ s.ports.status.getLsbD 1 = s.status.no_data
    ∧ s.ports.status.getLsbD 2 = s.status.src_err ∧ s.ports.status.getLsbD 3 = s.status.orphan
    ∧ s.ports.status.getLsbD 4 = s.status.ooc ∧ s.ports.status.getLsbD 5 = s.status.seq_err
    ∧ s.ports.status.getLsbD 6 = s.status.cnt_sat ∧ s.ports.status.getLsbD 7 = false
    ∧ s.ports.status.extractLsb' 8 4 = s.status.residual ∧ s.ports.status.extractLsb' 12 4 = 0b0000#4

/-- The output ports: `in_ready` is `len(outq) < OUT_DEPTH`, `out_valid` is `len(outq) > 0`, the head entry is
shown, and the counter ports show the counters (10_state.md R22, R23, R25). Nothing is said of `out_byte`
and `out_taint` while `out_valid = 0` (93_implementation_defined.md I2). -/
def Obligations.PortsShowHeadAndCounters : Prop :=
  ∀ s : State,
    (s.ports.in_ready = true ↔ s.outq.length < s.params.outDepth)
    ∧ (s.ports.out_valid = true ↔ 0 < s.outq.length)
    ∧ (∀ (e : Entry) (q : List Entry), s.outq = e :: q →
        s.ports.out_byte = e.byte ∧ s.ports.out_taint = BitVec.ofBool e.taint)
    ∧ (s.cnt_samples < 2 ^ s.params.cntW → s.ports.cnt_samples.toNat = s.cnt_samples)
    ∧ (s.cnt_pairs < 2 ^ s.params.cntW → s.ports.cnt_pairs.toNat = s.cnt_pairs)
    ∧ (s.cnt_ooc < 2 ^ s.params.cntW → s.ports.cnt_ooc.toNat = s.cnt_ooc)
    ∧ (s.cnt_bytes < 2 ^ s.params.cntW → s.ports.cnt_bytes.toNat = s.cnt_bytes)

/-- Saturating increment: at its maximum a counter keeps its value and CNT_SAT is set, else it goes up by
one and CNT_SAT keeps its value (10_state.md R40), for each of the four counters, with nothing else changed. -/
def Obligations.SaturatingIncrement : Prop :=
  ∀ s : State,
    s.countSample = (if s.cnt_samples = 2 ^ s.params.cntW - 1
      then { s with status := { s.status with cnt_sat := true } } else { s with cnt_samples := s.cnt_samples + 1 })
    ∧ s.countPair = (if s.cnt_pairs = 2 ^ s.params.cntW - 1
      then { s with status := { s.status with cnt_sat := true } } else { s with cnt_pairs := s.cnt_pairs + 1 })
    ∧ s.countOoc = (if s.cnt_ooc = 2 ^ s.params.cntW - 1
      then { s with status := { s.status with cnt_sat := true } } else { s with cnt_ooc := s.cnt_ooc + 1 })
    ∧ s.countByte = (if s.cnt_bytes = 2 ^ s.params.cntW - 1
      then { s with status := { s.status with cnt_sat := true } } else { s with cnt_bytes := s.cnt_bytes + 1 })

/-! ## Demodulator -/

/-- All sixteen constellation pairs give the source table's symbol with `ok = 1` (40_demodulator.md R103);
rows I and columns Q run -3, -1, 1, 3. -/
def Obligations.ConstellationTable : Prop :=
  ∀ a b : Fin 4,
    demod (samplePattern (2 * (a.val : Int) - 3)) (samplePattern (2 * (b.val : Int) - 3))
      = ((#v[#v[0#4, 1#4, 2#4, 3#4], #v[4#4, 5#4, 6#4, 7#4], #v[12#4, 13#4, 14#4, 15#4],
            #v[8#4, 9#4, 10#4, 11#4]][a.val])[b.val], true)

/-- A pair with a rail that is no constellation level gives the substitute symbol 0 with `ok = 0`
(40_demodulator.md R102, R104). -/
def Obligations.OutOfConstellationPairGivesSymbolZero : Prop :=
  ∀ i q : Byte,
    (i ∉ [0xFD#8, 0xFF#8, 0x01#8, 0x03#8] ∨ q ∉ [0xFD#8, 0xFF#8, 0x01#8, 0x03#8]) →
    demod i q = (0b0000#4, false)

/-- The gate forms of VALID and LC (40_demodulator.md R100, R101), and the structure of the table: Q in
natural binary order, I Gray-coded (R106). -/
def Obligations.LevelGateForms : Prop :=
  (∀ v : Byte, valid v = (v.getLsbD 0 && (v.extractLsb' 2 6 == 0b000000#6 || v.extractLsb' 2 6 == 0b111111#6)))
  ∧ (∀ v : Byte, valid v = true → levelCode v = BitVec.ofBool (!v.getLsbD 2) ++ BitVec.ofBool (v.getLsbD 1))
  ∧ (∀ a : BitVec 4, (romC a).extractLsb' 0 2 = a.extractLsb' 0 2
      ∧ (romC a).extractLsb' 2 2 = (#v[0#2, 1#2, 3#2, 2#2])[(a.extractLsb' 2 2).toNat]'(a.extractLsb' 2 2).isLt)

/-- Every symbol stands at exactly one address of the constellation ROM (20_memory.md R61), and the inverse
table gives levels that demodulate to it. -/
def Obligations.RomIsABijection : Prop :=
  ∀ sym : Symbol,
    (∃ a : BitVec 4, romC a = sym ∧ ∀ b : BitVec 4, romC b = sym → b = a)
    ∧ demod (samplePattern (symLevels sym).1) (samplePattern (symLevels sym).2) = (sym, true)

/-! ## Descrambler, assembler and reframer stages -/

/-- The key nibbles KN(0..12) of 42_descrambler.md R144, and the key packed as 0x051D (20_memory.md R62). -/
def Obligations.KeyNibbleTable : Prop :=
  (∀ k : Fin 13, keyNibble k
    = (#v[0xB#4, 0x7#4, 0xE#4, 0xC#4, 0x8#4, 0x1#4, 0x2#4, 0x5#4, 0xA#4, 0x4#4, 0x9#4, 0x2#4, 0x5#4])[k.val])
  ∧ (∀ k : Fin 13, key k = keyPacked.getLsbD k.val)

/-- Applying the descrambler twice from the same key index gives back the bits (42_descrambler.md R143). -/
def Obligations.DescramblerIsSelfInverse : Prop :=
  ∀ (k : Fin 13) (bits : List Bool), descramble k (descramble k bits) = bits

/-- Descrambled bit `j` is bit `j` XOR `KEY[(k + j) mod 13]`, for a stream that starts at key index `k`; at the
start of a frame `k = 0` (42_descrambler.md R141). -/
def Obligations.DescrambledBitUsesTheCyclicKey : Prop :=
  ∀ (k : Fin 13) (bits : List Bool) (j : Nat),
    (descramble k bits)[j]? = bits[j]?.map fun b => b ^^ cyclicKey (k.val + j)

/-- The serial loop over one symbol and its 4-lane form give the same state, from every state at a nibble
boundary (42_descrambler.md R144; 41_bit_assembler.md R125). -/
def Obligations.LaneFormEqualsSerialLoop : Prop :=
  ∀ (s : State) (sym : Symbol) (t : Bool), s.bit_cnt = 0 ∨ s.bit_cnt = 4 →
    s.shiftSymbol sym t = s.shiftSymbolLanes sym t

/-- Eight bits shifted into a reframer that holds none emit one byte, the first bit its MSB, tainted when one
of the eight bits is; the byte is counted and the reframer cleared (43_reframer.md R160, R161). -/
def Obligations.EightShiftsEmitTheByte : Prop :=
  ∀ (s : State) (b0 b1 b2 b3 b4 b5 b6 b7 t0 t1 t2 t3 t4 t5 t6 t7 : Bool),
    s.bit_cnt = 0 → s.byte_taint = false →
    [(b0, t0), (b1, t1), (b2, t2), (b3, t3), (b4, t4), (b5, t5), (b6, t6), (b7, t7)].foldl
        (fun (u : State) b => u.rfShift b.1 b.2) s
      = { s with
          outq := s.outq ++ [{ byte := byteOfBits b0 b1 b2 b3 b4 b5 b6 b7
                               taint := t0 || t1 || t2 || t3 || t4 || t5 || t6 || t7 }]
          cnt_bytes := satValue s.params.cntW s.cnt_bytes
          status := { s.status with cnt_sat := s.status.cnt_sat || satHit s.params.cntW s.cnt_bytes }
          sr := 0x00#8
          bit_cnt := 0
          byte_taint := false }

/-! ## SAMPLE -/

/-- SAMPLE as the I rail: the sample is held unchecked and counted, and nothing else changes
(44_stream_control.md R181). -/
def Obligations.SampleHoldsTheIRail : Prop :=
  ∀ (s : State) (v : Byte), s.status.done = false → s.have_i = false →
    exec (.sample v) s = .next { s with
      have_i := true
      i_reg := v
      cnt_samples := satValue s.params.cntW s.cnt_samples
      status := { s.status with cnt_sat := s.status.cnt_sat || satHit s.params.cntW s.cnt_samples } }

/-- SAMPLE as the Q rail of the first pair of a byte: the pair is demodulated and counted, an
out-of-constellation pair is recorded, its descrambled nibble enters the reframer, and nothing else changes
(44_stream_control.md R181, R182; 40_demodulator.md R104; 42_descrambler.md R144). -/
def Obligations.SampleCompletesTheFirstPairOfAByte : Prop :=
  ∀ (s : State) (v : Byte) (sym : Symbol) (ok : Bool),
    s.status.done = false → s.have_i = true → s.bit_cnt = 0 → demod s.i_reg v = (sym, ok) →
    exec (.sample v) s = .next { s with
      have_i := false
      i_reg := 0x00#8
      cnt_samples := satValue s.params.cntW s.cnt_samples
      cnt_pairs := satValue s.params.cntW s.cnt_pairs
      cnt_ooc := if ok then s.cnt_ooc else satValue s.params.cntW s.cnt_ooc
      status := { s.status with
        ooc := s.status.ooc || !ok
        cnt_sat := s.status.cnt_sat || satHit s.params.cntW s.cnt_samples
          || satHit s.params.cntW s.cnt_pairs || (!ok && satHit s.params.cntW s.cnt_ooc) }
      key_idx := s.key_idx + 4
      sr := shiftNibble s.sr (sym ^^^ keyNibble s.key_idx)
      bit_cnt := 4
      byte_taint := s.byte_taint || !ok }

/-- SAMPLE as the Q rail of the second pair of a byte: as for the first pair, and the byte of the two nibbles
is pushed with the taint of both pairs and counted, and the reframer cleared (44_stream_control.md R181,
R182; 43_reframer.md R161, R163, R164). -/
def Obligations.SampleCompletesTheSecondPairOfAByte : Prop :=
  ∀ (s : State) (v : Byte) (sym : Symbol) (ok : Bool),
    s.status.done = false → s.have_i = true → s.bit_cnt = 4 → demod s.i_reg v = (sym, ok) →
    exec (.sample v) s = .next { s with
      have_i := false
      i_reg := 0x00#8
      cnt_samples := satValue s.params.cntW s.cnt_samples
      cnt_pairs := satValue s.params.cntW s.cnt_pairs
      cnt_ooc := if ok then s.cnt_ooc else satValue s.params.cntW s.cnt_ooc
      cnt_bytes := satValue s.params.cntW s.cnt_bytes
      status := { s.status with
        ooc := s.status.ooc || !ok
        cnt_sat := s.status.cnt_sat || satHit s.params.cntW s.cnt_samples
          || satHit s.params.cntW s.cnt_pairs || (!ok && satHit s.params.cntW s.cnt_ooc)
          || satHit s.params.cntW s.cnt_bytes }
      key_idx := s.key_idx + 4
      outq := s.outq ++ [{ byte := shiftNibble s.sr (sym ^^^ keyNibble s.key_idx)
                           taint := s.byte_taint || !ok }]
      sr := 0x00#8
      bit_cnt := 0
      byte_taint := false }

/-- An out-of-constellation pair moves the stream exactly as the pair (-3, -3) would (44_stream_control.md R183).
The two next states `t` and `u` are the same but for OOC, for CNT_OOC and the CNT_SAT that its increment may set
(10_state.md R40), and for taint: that of the bits still held, and that of an entry this pair completes, whose
byte is the same. Entries already queued are kept as they are. -/
def Obligations.OutOfConstellationPairMovesTheStreamAsSymbolZero : Prop :=
  ∀ (s : State) (q : Byte),
    s.status.done = false → s.have_i = true → (demod s.i_reg q).2 = false →
    ∃ t u : State, exec (.sample q) s = .next t
      ∧ exec (.sample 0xFD#8) { s with i_reg := 0xFD#8 } = .next u
      ∧ { t with status := u.status, cnt_ooc := u.cnt_ooc, byte_taint := u.byte_taint, outq := u.outq } = u
      ∧ t.status = { u.status with
          ooc := true
          cnt_sat := u.status.cnt_sat || satHit s.params.cntW s.cnt_ooc }
      ∧ u.status.ooc = s.status.ooc
      ∧ t.cnt_ooc = satValue s.params.cntW s.cnt_ooc ∧ u.cnt_ooc = s.cnt_ooc
      ∧ t.byte_taint = decide (s.bit_cnt ≠ 4)
      ∧ u.byte_taint = (decide (s.bit_cnt < 4) && s.byte_taint)
      ∧ ((s.bit_cnt < 4 ∧ t.outq = s.outq ∧ u.outq = s.outq)
        ∨ (4 ≤ s.bit_cnt ∧ ∃ b : Byte,
            t.outq = s.outq ++ [{ byte := b, taint := true }]
            ∧ u.outq = s.outq ++ [{ byte := b, taint := s.byte_taint }]))

/-- A beat never removes or reorders entries and pushes at most one, and only a SAMPLE that completes a pair
pushes (43_reframer.md R164; 44_stream_control.md R184, R187, R188). -/
def Obligations.OneBeatPushesAtMostOneEntry : Prop :=
  ∀ (i : Instr) (s t : State), exec i s = .next t →
    t.outq = s.outq
    ∨ ∃ (v : Byte) (e : Entry), i = .sample v ∧ s.status.done = false ∧ s.have_i = true
        ∧ t.outq = s.outq ++ [e]

/-! ## END, SRCERR, START, and beats after the close -/

/-- END while DONE = 0: NO_DATA tells whether the frame had no sample, an odd trailing sample and a partial
byte are dropped and recorded, DONE is set, and nothing else changes (44_stream_control.md R184, R185;
43_reframer.md R162). -/
def Obligations.EndClosesTheFrame : Prop :=
  ∀ (s : State) (d : Byte), s.status.done = false →
    exec (.endBeat d) s = .next { s with
      status := { s.status with
        done := true
        no_data := decide (s.cnt_samples = 0)
        orphan := s.status.orphan || s.have_i
        residual := BitVec.ofNat 4 s.bit_cnt.val }
      have_i := false
      i_reg := bif s.have_i then 0x00#8 else s.i_reg
      sr := 0x00#8
      bit_cnt := 0
      byte_taint := false }

/-- SRCERR while DONE = 0: SRC_ERR is set, NO_DATA is not written, the frame is closed as END closes it, and
nothing else changes; entries already pushed stay (44_stream_control.md R184, R186; 43_reframer.md R162). -/
def Obligations.SrcErrClosesTheFrame : Prop :=
  ∀ (s : State) (d : Byte), s.status.done = false →
    exec (.srcErr d) s = .next { s with
      status := { s.status with
        done := true
        src_err := true
        orphan := s.status.orphan || s.have_i
        residual := BitVec.ofNat 4 s.bit_cnt.val }
      have_i := false
      i_reg := bif s.have_i then 0x00#8 else s.i_reg
      sr := 0x00#8
      bit_cnt := 0
      byte_taint := false }

/-- START, in either frame state, writes every element to its reset value except `outq`, which keeps its
entries in order (44_stream_control.md R187; 10_state.md R50). -/
def Obligations.StartClearsTheFrame : Prop :=
  ∀ (s : State) (d : Byte),
    exec (.start d) s = .next { State.resetWith s.params with
      outq := s.outq
      inputs := s.inputs
      delivered := s.delivered
      edge := s.edge }

/-- The state after a reset edge and the state after START differ only in `outq` (70_reset_and_hazards.md
R261). -/
def Obligations.ResetAndStartDifferOnlyInTheQueue : Prop :=
  ∀ (s t u : State) (p : PortIn) (rest : List PortIn) (d : Byte),
    s.inputs = p :: rest → p.rst = true → step s = .next t → exec (.start d) s.takeEdge = .next u →
    t.status.done = false ∧ t.outq = [] ∧ u.outq = s.outq ∧ u = { t with outq := s.outq }

/-- SAMPLE, END or SRCERR while DONE = 1 sets SEQ_ERR and changes nothing else (44_stream_control.md R188). -/
def Obligations.BeatAfterTheCloseOnlySetsSeqErr : Prop :=
  ∀ (s : State) (d : Byte), s.status.done = true →
    exec (.sample d) s = .next { s with status := { s.status with seq_err := true } }
    ∧ exec (.endBeat d) s = .next { s with status := { s.status with seq_err := true } }
    ∧ exec (.srcErr d) s = .next { s with status := { s.status with seq_err := true } }

/-- A source that cannot be read, reported by SRCERR as the frame's first beat, gives no bytes and STATUS =
0x0005, told apart from an empty capture, which gives no bytes and STATUS = 0x0003 (44_stream_control.md
R185, R186; 60_exceptions.md R229). -/
def Obligations.UnavailableSourceIsToldFromEmptyCapture : Prop :=
  ∀ (s : State) (d d' : Byte), ∃ t u : State,
    execAll (unavailableBeats d d') s = .next t ∧ t.status.word = 0x0005#16 ∧ t.outq = s.outq ∧ t.cnt_bytes = 0
    ∧ execAll (captureBeats d [] d') s = .next u ∧ u.status.word = 0x0003#16 ∧ u.outq = s.outq ∧ u.cnt_bytes = 0

/-! ## Rules of the whole machine -/

/-- The invariants of 10_state.md R51 (with R28, R33, R35, R36, R38 and R40 to R45) hold right after reset,
for every build with legal parameters. -/
def Obligations.ResetMeetsTheInvariants : Prop :=
  ∀ p : Params, p.wellFormed = true → (State.resetWith p).Inv

/-- Every step keeps the invariants of 10_state.md R51 (with R28, R33, R35, R36, R38 and R40 to R45), from every
state that meets them and whatever the host drives. -/
def Obligations.StepKeepsTheInvariants : Prop :=
  ∀ s t : State, s.Inv → step s = .next t → t.Inv

/-- Once set, a sticky STATUS field stays 1 until reset or START clears it (10_state.md R30). -/
def Obligations.StatusFieldsAreSticky : Prop :=
  ∀ s t : State, s.Inv → step s = .next t → s.portIn.rst = false →
    (∀ d : Byte, s.acceptedNow ≠ some (.start d)) →
    (s.status.done = true → t.status.done = true)
    ∧ (s.status.no_data = true → t.status.no_data = true)
    ∧ (s.status.src_err = true → t.status.src_err = true)
    ∧ (s.status.orphan = true → t.status.orphan = true)
    ∧ (s.status.ooc = true → t.status.ooc = true)
    ∧ (s.status.seq_err = true → t.status.seq_err = true)
    ∧ (s.status.cnt_sat = true → t.status.cnt_sat = true)

/-- Each STATUS field is set only by the beats, and in the circumstances, that its rule names (10_state.md R31 to
R38): for CNT_SAT, one of the counters that the SAMPLE increments already held its maximum (R37, R40), and
RESIDUAL takes the value of `bit_cnt` from END or SRCERR while DONE = 0, and 0 from START or reset (R38). -/
def Obligations.EachStatusFieldHasItsOwnBeats : Prop :=
  ∀ s t : State, step s = .next t →
    (s.status.done = false → t.status.done = true →
      ∃ d, s.acceptedNow = some (.endBeat d) ∨ s.acceptedNow = some (.srcErr d))
    ∧ (s.status.no_data = false → t.status.no_data = true →
      s.status.done = false ∧ s.cnt_samples = 0 ∧ ∃ d, s.acceptedNow = some (.endBeat d))
    ∧ (s.status.src_err = false → t.status.src_err = true →
      s.status.done = false ∧ ∃ d, s.acceptedNow = some (.srcErr d))
    ∧ (s.status.orphan = false → t.status.orphan = true →
      s.status.done = false ∧ s.have_i = true
        ∧ ∃ d, s.acceptedNow = some (.endBeat d) ∨ s.acceptedNow = some (.srcErr d))
    ∧ (s.status.ooc = false → t.status.ooc = true →
      s.status.done = false ∧ s.have_i = true
        ∧ ∃ v, s.acceptedNow = some (.sample v) ∧ (demod s.i_reg v).2 = false)
    ∧ (s.status.seq_err = false → t.status.seq_err = true →
      s.status.done = true
        ∧ ∃ d, s.acceptedNow = some (.sample d) ∨ s.acceptedNow = some (.endBeat d)
          ∨ s.acceptedNow = some (.srcErr d))
    ∧ (s.status.cnt_sat = false → t.status.cnt_sat = true →
      s.status.done = false ∧ ∃ v, s.acceptedNow = some (.sample v)
        ∧ (s.cnt_samples = 2 ^ s.params.cntW - 1
          ∨ s.have_i = true ∧ (s.cnt_pairs = 2 ^ s.params.cntW - 1
            ∨ (demod s.i_reg v).2 = false ∧ s.cnt_ooc = 2 ^ s.params.cntW - 1
            ∨ 4 ≤ s.bit_cnt ∧ s.cnt_bytes = 2 ^ s.params.cntW - 1)))
    ∧ (t.status.residual ≠ s.status.residual →
      t.status.residual = 0#4 ∧ (s.portIn.rst = true ∨ ∃ d, s.acceptedNow = some (.start d))
      ∨ s.status.done = false ∧ t.status.residual = BitVec.ofNat 4 s.bit_cnt.val
        ∧ ∃ d, s.acceptedNow = some (.endBeat d) ∨ s.acceptedNow = some (.srcErr d))

/-- Only START or reset opens a new frame after a close (10_state.md R31; 60_exceptions.md R222). -/
def Obligations.OnlyStartOrResetReopensAFrame : Prop :=
  ∀ s t : State, step s = .next t → s.status.done = true → t.status.done = false →
    s.portIn.rst = true ∨ ∃ d, s.acceptedNow = some (.start d)

/-- No counter wraps: outside reset and START none ever falls, and each stays within its `CNT_W` bits
(10_state.md R40). -/
def Obligations.CountersNeverFall : Prop :=
  ∀ s t : State, step s = .next t → s.portIn.rst = false →
    (∀ d : Byte, s.acceptedNow ≠ some (.start d)) →
    (s.cnt_samples ≤ t.cnt_samples ∧ s.cnt_pairs ≤ t.cnt_pairs ∧ s.cnt_ooc ≤ t.cnt_ooc
      ∧ s.cnt_bytes ≤ t.cnt_bytes)
    ∧ (s.cnt_samples < 2 ^ s.params.cntW → t.cnt_samples < 2 ^ t.params.cntW)
    ∧ (s.cnt_pairs < 2 ^ s.params.cntW → t.cnt_pairs < 2 ^ t.params.cntW)
    ∧ (s.cnt_ooc < 2 ^ s.params.cntW → t.cnt_ooc < 2 ^ t.params.cntW)
    ∧ (s.cnt_bytes < 2 ^ s.params.cntW → t.cnt_bytes < 2 ^ t.params.cntW)

/-- A frame that END closes with NO_DATA records neither ORPHAN nor RESIDUAL (60_exceptions.md R231). -/
def Obligations.NoDataComesAlone : Prop :=
  ∀ (s t : State) (d : Byte), s.Inv → s.status.done = false → exec (.endBeat d) s = .next t →
    t.status.no_data = true → t.status.orphan = false ∧ t.status.residual = 0#4

/-- What a beat does never depends on the entries in `outq`: with more entries in front of the queue, the
beat has the same effect behind them (20_memory.md R72). -/
def Obligations.BeatsIgnoreTheQueue : Prop :=
  ∀ (i : Instr) (s t : State) (front : List Entry), exec i s = .next t →
    exec i { s with outq := front ++ s.outq } = .next { t with outq := front ++ t.outq }

/-- The sequence of accepted beats determines everything (20_memory.md R72): a run without reset, whatever the
host pops and when, ends with the registers that its accepted beats alone give, and what it delivers and
what is left in `outq` is what was in `outq` and then what those beats push, in that order (R71). -/
def Obligations.AcceptedBeatsDetermineTheRun : Prop :=
  ∀ (k : Nat) (s : State), s.resetWithin k = false →
    ∃ t u : State, Host.Core.run core k s = .next t
      ∧ execAll (acceptedBeats k s) { s with outq := [] } = .next u
      ∧ t.sameButQueue u = true
      ∧ deliveredEntries k s ++ t.outq = s.outq ++ u.outq

/-! ## Whole frames -/

/-- Bitstream bit `i` of a frame is bit `3 - (i mod 4)` of the symbol of pair `floor(i/4)` (41_bit_assembler.md
R121), in the batch computation that the frame statements compare the machine with. -/
def Obligations.FrameBitIsTheSymbolBit : Prop :=
  ∀ (samples : List Byte) (i : Nat),
    (frameBits samples)[i]?.map Prod.fst
      = (framePairs samples)[i / 4]?.map fun p => (demod p.1 p.2).1.getLsbD (3 - i % 4)

/-- Byte `n` of a frame is tainted exactly when pair `2n` or pair `2n+1` is out of constellation (43_reframer.md
R163), in the batch computation. -/
def Obligations.ByteTaintIsThatOfItsTwoPairs : Prop :=
  ∀ (samples : List Byte) (n : Nat) (p p' : Byte × Byte),
    (framePairs samples)[2 * n]? = some p → (framePairs samples)[2 * n + 1]? = some p' →
    (frameEntries samples)[n]?.map Entry.taint = some (!(demod p.1 p.2).2 || !(demod p'.1 p'.2).2)

/-- Re-expanding the bytes of a frame MSB-first gives back the descrambled bitstream, less the trailing group
of fewer than eight bits (43_reframer.md R165), in the batch computation. -/
def Obligations.ReexpandedBytesAreTheBitstream : Prop :=
  ∀ samples : List Byte,
    (frameEntries samples).flatMap (fun e => (List.range 8).map fun j => e.byte.getLsbD (7 - j))
      = ((frameDescrambled samples).map Prod.fst).take (8 * ((frameDescrambled samples).length / 8))
    ∧ (frameEntries samples).length = (frameBits samples).length / 8

/-- The block decodes a whole capture as the source's pipeline does: from every state, START, the capture's
samples and END push exactly the bytes of the batch computation, in order, and leave its anomaly report in
STATUS and the counters (60_exceptions.md R241; 42_descrambler.md R141; 43_reframer.md R165;
44_stream_control.md R185). -/
def Obligations.CaptureIsDecodedWhole : Prop :=
  ∀ (s : State) (samples : List Byte) (d d' : Byte), s.params.wellFormed = true →
    ∃ t : State, execAll (captureBeats d samples d') s = .next t
      ∧ t.outq = s.outq ++ frameEntries samples
      ∧ t.cnt_samples = min samples.length (2 ^ s.params.cntW - 1)
      ∧ t.cnt_pairs = min (samples.length / 2) (2 ^ s.params.cntW - 1)
      ∧ t.cnt_ooc = min (framePairsOoc samples) (2 ^ s.params.cntW - 1)
      ∧ t.cnt_bytes = min (frameEntries samples).length (2 ^ s.params.cntW - 1)
      ∧ t.status = { Status.reset with
          done := true
          no_data := samples.isEmpty
          orphan := decide (samples.length % 2 = 1)
          ooc := decide (0 < framePairsOoc samples)
          cnt_sat := decide (2 ^ s.params.cntW ≤ samples.length)
          residual := BitVec.ofNat 4 (4 * (samples.length / 2) % 8) }

/-- When a run without reset has accepted START, a capture's samples and END, and is over (DONE = 1 and `outq`
empty), what it delivered is what `outq` held before and then exactly the bytes of the batch computation,
however the host timed its beats and pops (44_stream_control.md R195; 60_exceptions.md R241). -/
def Obligations.FinishedRunDeliversTheDecodedCapture : Prop :=
  ∀ (k : Nat) (s t : State) (samples : List Byte) (d d' : Byte),
    s.params.wellFormed = true → s.resetWithin k = false → Host.Core.run core k s = .next t →
    acceptedBeats k s = captureBeats d samples d' → t.runOver = true →
    deliveredEntries k s = s.outq ++ frameEntries samples

/-! ## Beat assembly -/

/-- The assembler refuses a sample value outside -128..127, a pattern over 0xFF, an operand on END, SRCERR or
START, and any other mnemonic, naming the line; it does not refuse an out-of-constellation value
(30_encoding.md R91). Which characters are white space, that lines are numbered from 1, and that the first line
refused is the one named, are the model's choice (log entry 20). -/
def Obligations.AssemblerRefusals : Prop :=
  (∀ v : Int, v < -128 ∨ 127 < v → assembleLine .sample [.dec v] = .error .valueOutOfRange)
  ∧ (∀ p : Nat, 0xFF < p → assembleLine .sample [.hex p] = .error .patternTooWide)
  ∧ (∀ (o : AsmOperand) (os : List AsmOperand),
      assembleLine .endBeat (o :: os) = .error .operandNotAllowed
      ∧ assembleLine .srcErr (o :: os) = .error .operandNotAllowed
      ∧ assembleLine .start (o :: os) = .error .operandNotAllowed)
  ∧ (∀ line : List Char, trimLine (cutComment line) ≠ [] →
      readMnemonic ((trimLine (cutComment line)).takeWhile fun c => !isBlankChar c) = none →
      assembleText line = .error .unknownMnemonic)
  ∧ (∀ (before rest : List (List Char)) (line : List Char) (e : AsmError),
      (∀ l ∈ before, ∃ ws, assembleText l = .ok ws) → assembleText line = .error e →
      assemble (before ++ line :: rest) = .error (before.length + 1, e))
  ∧ (∀ v : Int, -128 ≤ v ∧ v ≤ 127 →
      assembleLine .sample [.dec v] = .ok [encode (.sample (samplePattern v))])
  ∧ (∀ d : Byte, assembleLine .sample [.hex d.toNat] = .ok [encode (.sample d)])

/-- The pseudo-instructions: `PAIR i, q` assembles to `SAMPLE i` then `SAMPLE q` (30_encoding.md R92), and `SYM s` to
`PAIR I(s), Q(s)`, the pair of levels that demodulates to `s` (R93); a symbol outside 0..15 is refused. -/
def Obligations.PseudoInstructionsExpand : Prop :=
  (∀ (i q : AsmOperand) (wi wq : List Word10),
    assembleLine .sample [i] = .ok wi → assembleLine .sample [q] = .ok wq →
    assembleLine .pair [i, q] = .ok (wi ++ wq))
  ∧ (∀ sym : Symbol, assembleLine .sym [.dec (sym.toNat : Int)]
      = assembleLine .pair [.dec (symLevels sym).1, .dec (symLevels sym).2])
  ∧ (∀ sym : Symbol, ∃ i q : Byte,
      assembleLine .sym [.dec (sym.toNat : Int)] = .ok [encode (.sample i), encode (.sample q)]
      ∧ demod i q = (sym, true))
  ∧ assembleLine .sym [.dec 12] = .ok [0x001#10, 0x0FD#10]
  ∧ (∀ v : Int, v < 0 ∨ 15 < v → assembleLine .sym [.dec v] = .error .symbolOutOfRange)

/-! ## Anomalies -/

/-- Each anomaly is recorded exactly when one of the STATUS bits of its code is 1, and the codes are those of
60_exceptions.md R221: bits 1 to 6, and the field 8..11, whose value is the count of dropped bits (R226). -/
def Obligations.AnomalyCodesAreTheStatusBits : Prop :=
  (∀ (s : State) (a : Anomaly), s.status.records a = a.code.any fun b => s.ports.status.getLsbD b)
  ∧ Anomaly.code .noData = [1] ∧ Anomaly.code .sourceUnavailable = [2]
  ∧ Anomaly.code .incompleteTrailingSample = [3] ∧ Anomaly.code .outOfConstellationSymbol = [4]
  ∧ Anomaly.code .sequenceError = [5] ∧ Anomaly.code .counterSaturation = [6]
  ∧ Anomaly.code .incompleteTrailingBitGroup = [8, 9, 10, 11]
  ∧ ∀ s : State, s.ports.status.extractLsb' 8 4 = s.status.residual
end

