-- ==== Sys2Proof/Laws/State.lean ====
section
/-! SUPPORT. One lemma for each field of State and each named update of Machine/Ops.lean: what the field reads
after the update. All are true by definition and in the simp set, so that no later proof unfolds a record update. -/

namespace Sys2Proof.Machine

/-! Write STATUS. -/

@[simp] theorem State.setStatus_params (s : State) (st : Status) : (s.setStatus st).params = s.params := rfl
@[simp] theorem State.setStatus_status (s : State) (st : Status) : (s.setStatus st).status = st := rfl
@[simp] theorem State.setStatus_have_i (s : State) (st : Status) : (s.setStatus st).have_i = s.have_i := rfl
@[simp] theorem State.setStatus_i_reg (s : State) (st : Status) : (s.setStatus st).i_reg = s.i_reg := rfl
@[simp] theorem State.setStatus_key_idx (s : State) (st : Status) : (s.setStatus st).key_idx = s.key_idx := rfl
@[simp] theorem State.setStatus_sr (s : State) (st : Status) : (s.setStatus st).sr = s.sr := rfl
@[simp] theorem State.setStatus_bit_cnt (s : State) (st : Status) : (s.setStatus st).bit_cnt = s.bit_cnt := rfl
@[simp] theorem State.setStatus_byte_taint (s : State) (st : Status) : (s.setStatus st).byte_taint = s.byte_taint := rfl
@[simp] theorem State.setStatus_outq (s : State) (st : Status) : (s.setStatus st).outq = s.outq := rfl
@[simp] theorem State.setStatus_cnt_samples (s : State) (st : Status) : (s.setStatus st).cnt_samples = s.cnt_samples := rfl
@[simp] theorem State.setStatus_cnt_pairs (s : State) (st : Status) : (s.setStatus st).cnt_pairs = s.cnt_pairs := rfl
@[simp] theorem State.setStatus_cnt_ooc (s : State) (st : Status) : (s.setStatus st).cnt_ooc = s.cnt_ooc := rfl
@[simp] theorem State.setStatus_cnt_bytes (s : State) (st : Status) : (s.setStatus st).cnt_bytes = s.cnt_bytes := rfl
@[simp] theorem State.setStatus_inputs (s : State) (st : Status) : (s.setStatus st).inputs = s.inputs := rfl
@[simp] theorem State.setStatus_delivered (s : State) (st : Status) : (s.setStatus st).delivered = s.delivered := rfl
@[simp] theorem State.setStatus_edge (s : State) (st : Status) : (s.setStatus st).edge = s.edge := rfl

/-! Hold an I sample. -/

@[simp] theorem State.holdI_params (s : State) (v : Byte) : (s.holdI v).params = s.params := rfl
@[simp] theorem State.holdI_status (s : State) (v : Byte) : (s.holdI v).status = s.status := rfl
@[simp] theorem State.holdI_have_i (s : State) (v : Byte) : (s.holdI v).have_i = true := rfl
@[simp] theorem State.holdI_i_reg (s : State) (v : Byte) : (s.holdI v).i_reg = v := rfl
@[simp] theorem State.holdI_key_idx (s : State) (v : Byte) : (s.holdI v).key_idx = s.key_idx := rfl
@[simp] theorem State.holdI_sr (s : State) (v : Byte) : (s.holdI v).sr = s.sr := rfl
@[simp] theorem State.holdI_bit_cnt (s : State) (v : Byte) : (s.holdI v).bit_cnt = s.bit_cnt := rfl
@[simp] theorem State.holdI_byte_taint (s : State) (v : Byte) : (s.holdI v).byte_taint = s.byte_taint := rfl
@[simp] theorem State.holdI_outq (s : State) (v : Byte) : (s.holdI v).outq = s.outq := rfl
@[simp] theorem State.holdI_cnt_samples (s : State) (v : Byte) : (s.holdI v).cnt_samples = s.cnt_samples := rfl
@[simp] theorem State.holdI_cnt_pairs (s : State) (v : Byte) : (s.holdI v).cnt_pairs = s.cnt_pairs := rfl
@[simp] theorem State.holdI_cnt_ooc (s : State) (v : Byte) : (s.holdI v).cnt_ooc = s.cnt_ooc := rfl
@[simp] theorem State.holdI_cnt_bytes (s : State) (v : Byte) : (s.holdI v).cnt_bytes = s.cnt_bytes := rfl
@[simp] theorem State.holdI_inputs (s : State) (v : Byte) : (s.holdI v).inputs = s.inputs := rfl
@[simp] theorem State.holdI_delivered (s : State) (v : Byte) : (s.holdI v).delivered = s.delivered := rfl
@[simp] theorem State.holdI_edge (s : State) (v : Byte) : (s.holdI v).edge = s.edge := rfl

/-! Let go of the I sample. -/

@[simp] theorem State.dropI_params (s : State) : (s.dropI).params = s.params := rfl
@[simp] theorem State.dropI_status (s : State) : (s.dropI).status = s.status := rfl
@[simp] theorem State.dropI_have_i (s : State) : (s.dropI).have_i = false := rfl
@[simp] theorem State.dropI_i_reg (s : State) : (s.dropI).i_reg = 0x00#8 := rfl
@[simp] theorem State.dropI_key_idx (s : State) : (s.dropI).key_idx = s.key_idx := rfl
@[simp] theorem State.dropI_sr (s : State) : (s.dropI).sr = s.sr := rfl
@[simp] theorem State.dropI_bit_cnt (s : State) : (s.dropI).bit_cnt = s.bit_cnt := rfl
@[simp] theorem State.dropI_byte_taint (s : State) : (s.dropI).byte_taint = s.byte_taint := rfl
@[simp] theorem State.dropI_outq (s : State) : (s.dropI).outq = s.outq := rfl
@[simp] theorem State.dropI_cnt_samples (s : State) : (s.dropI).cnt_samples = s.cnt_samples := rfl
@[simp] theorem State.dropI_cnt_pairs (s : State) : (s.dropI).cnt_pairs = s.cnt_pairs := rfl
@[simp] theorem State.dropI_cnt_ooc (s : State) : (s.dropI).cnt_ooc = s.cnt_ooc := rfl
@[simp] theorem State.dropI_cnt_bytes (s : State) : (s.dropI).cnt_bytes = s.cnt_bytes := rfl
@[simp] theorem State.dropI_inputs (s : State) : (s.dropI).inputs = s.inputs := rfl
@[simp] theorem State.dropI_delivered (s : State) : (s.dropI).delivered = s.delivered := rfl
@[simp] theorem State.dropI_edge (s : State) : (s.dropI).edge = s.edge := rfl

/-! Count a sample. -/

@[simp] theorem State.countSample_params (s : State) : (s.countSample).params = s.params := rfl
@[simp] theorem State.countSample_status (s : State) : (s.countSample).status = s.satStatus s.cnt_samples := rfl
@[simp] theorem State.countSample_have_i (s : State) : (s.countSample).have_i = s.have_i := rfl
@[simp] theorem State.countSample_i_reg (s : State) : (s.countSample).i_reg = s.i_reg := rfl
@[simp] theorem State.countSample_key_idx (s : State) : (s.countSample).key_idx = s.key_idx := rfl
@[simp] theorem State.countSample_sr (s : State) : (s.countSample).sr = s.sr := rfl
@[simp] theorem State.countSample_bit_cnt (s : State) : (s.countSample).bit_cnt = s.bit_cnt := rfl
@[simp] theorem State.countSample_byte_taint (s : State) : (s.countSample).byte_taint = s.byte_taint := rfl
@[simp] theorem State.countSample_outq (s : State) : (s.countSample).outq = s.outq := rfl
@[simp] theorem State.countSample_cnt_samples (s : State) : (s.countSample).cnt_samples = satValue s.params.cntW s.cnt_samples := rfl
@[simp] theorem State.countSample_cnt_pairs (s : State) : (s.countSample).cnt_pairs = s.cnt_pairs := rfl
@[simp] theorem State.countSample_cnt_ooc (s : State) : (s.countSample).cnt_ooc = s.cnt_ooc := rfl
@[simp] theorem State.countSample_cnt_bytes (s : State) : (s.countSample).cnt_bytes = s.cnt_bytes := rfl
@[simp] theorem State.countSample_inputs (s : State) : (s.countSample).inputs = s.inputs := rfl
@[simp] theorem State.countSample_delivered (s : State) : (s.countSample).delivered = s.delivered := rfl
@[simp] theorem State.countSample_edge (s : State) : (s.countSample).edge = s.edge := rfl

/-! Count a pair. -/

@[simp] theorem State.countPair_params (s : State) : (s.countPair).params = s.params := rfl
@[simp] theorem State.countPair_status (s : State) : (s.countPair).status = s.satStatus s.cnt_pairs := rfl
@[simp] theorem State.countPair_have_i (s : State) : (s.countPair).have_i = s.have_i := rfl
@[simp] theorem State.countPair_i_reg (s : State) : (s.countPair).i_reg = s.i_reg := rfl
@[simp] theorem State.countPair_key_idx (s : State) : (s.countPair).key_idx = s.key_idx := rfl
@[simp] theorem State.countPair_sr (s : State) : (s.countPair).sr = s.sr := rfl
@[simp] theorem State.countPair_bit_cnt (s : State) : (s.countPair).bit_cnt = s.bit_cnt := rfl
@[simp] theorem State.countPair_byte_taint (s : State) : (s.countPair).byte_taint = s.byte_taint := rfl
@[simp] theorem State.countPair_outq (s : State) : (s.countPair).outq = s.outq := rfl
@[simp] theorem State.countPair_cnt_samples (s : State) : (s.countPair).cnt_samples = s.cnt_samples := rfl
@[simp] theorem State.countPair_cnt_pairs (s : State) : (s.countPair).cnt_pairs = satValue s.params.cntW s.cnt_pairs := rfl
@[simp] theorem State.countPair_cnt_ooc (s : State) : (s.countPair).cnt_ooc = s.cnt_ooc := rfl
@[simp] theorem State.countPair_cnt_bytes (s : State) : (s.countPair).cnt_bytes = s.cnt_bytes := rfl
@[simp] theorem State.countPair_inputs (s : State) : (s.countPair).inputs = s.inputs := rfl
@[simp] theorem State.countPair_delivered (s : State) : (s.countPair).delivered = s.delivered := rfl
@[simp] theorem State.countPair_edge (s : State) : (s.countPair).edge = s.edge := rfl

/-! Count an out-of-constellation pair. -/

@[simp] theorem State.countOoc_params (s : State) : (s.countOoc).params = s.params := rfl
@[simp] theorem State.countOoc_status (s : State) : (s.countOoc).status = s.satStatus s.cnt_ooc := rfl
@[simp] theorem State.countOoc_have_i (s : State) : (s.countOoc).have_i = s.have_i := rfl
@[simp] theorem State.countOoc_i_reg (s : State) : (s.countOoc).i_reg = s.i_reg := rfl
@[simp] theorem State.countOoc_key_idx (s : State) : (s.countOoc).key_idx = s.key_idx := rfl
@[simp] theorem State.countOoc_sr (s : State) : (s.countOoc).sr = s.sr := rfl
@[simp] theorem State.countOoc_bit_cnt (s : State) : (s.countOoc).bit_cnt = s.bit_cnt := rfl
@[simp] theorem State.countOoc_byte_taint (s : State) : (s.countOoc).byte_taint = s.byte_taint := rfl
@[simp] theorem State.countOoc_outq (s : State) : (s.countOoc).outq = s.outq := rfl
@[simp] theorem State.countOoc_cnt_samples (s : State) : (s.countOoc).cnt_samples = s.cnt_samples := rfl
@[simp] theorem State.countOoc_cnt_pairs (s : State) : (s.countOoc).cnt_pairs = s.cnt_pairs := rfl
@[simp] theorem State.countOoc_cnt_ooc (s : State) : (s.countOoc).cnt_ooc = satValue s.params.cntW s.cnt_ooc := rfl
@[simp] theorem State.countOoc_cnt_bytes (s : State) : (s.countOoc).cnt_bytes = s.cnt_bytes := rfl
@[simp] theorem State.countOoc_inputs (s : State) : (s.countOoc).inputs = s.inputs := rfl
@[simp] theorem State.countOoc_delivered (s : State) : (s.countOoc).delivered = s.delivered := rfl
@[simp] theorem State.countOoc_edge (s : State) : (s.countOoc).edge = s.edge := rfl

/-! Count a byte. -/

@[simp] theorem State.countByte_params (s : State) : (s.countByte).params = s.params := rfl
@[simp] theorem State.countByte_status (s : State) : (s.countByte).status = s.satStatus s.cnt_bytes := rfl
@[simp] theorem State.countByte_have_i (s : State) : (s.countByte).have_i = s.have_i := rfl
@[simp] theorem State.countByte_i_reg (s : State) : (s.countByte).i_reg = s.i_reg := rfl
@[simp] theorem State.countByte_key_idx (s : State) : (s.countByte).key_idx = s.key_idx := rfl
@[simp] theorem State.countByte_sr (s : State) : (s.countByte).sr = s.sr := rfl
@[simp] theorem State.countByte_bit_cnt (s : State) : (s.countByte).bit_cnt = s.bit_cnt := rfl
@[simp] theorem State.countByte_byte_taint (s : State) : (s.countByte).byte_taint = s.byte_taint := rfl
@[simp] theorem State.countByte_outq (s : State) : (s.countByte).outq = s.outq := rfl
@[simp] theorem State.countByte_cnt_samples (s : State) : (s.countByte).cnt_samples = s.cnt_samples := rfl
@[simp] theorem State.countByte_cnt_pairs (s : State) : (s.countByte).cnt_pairs = s.cnt_pairs := rfl
@[simp] theorem State.countByte_cnt_ooc (s : State) : (s.countByte).cnt_ooc = s.cnt_ooc := rfl
@[simp] theorem State.countByte_cnt_bytes (s : State) : (s.countByte).cnt_bytes = satValue s.params.cntW s.cnt_bytes := rfl
@[simp] theorem State.countByte_inputs (s : State) : (s.countByte).inputs = s.inputs := rfl
@[simp] theorem State.countByte_delivered (s : State) : (s.countByte).delivered = s.delivered := rfl
@[simp] theorem State.countByte_edge (s : State) : (s.countByte).edge = s.edge := rfl

/-! Move the key index on. -/

@[simp] theorem State.advanceKey_params (s : State) : (s.advanceKey).params = s.params := rfl
@[simp] theorem State.advanceKey_status (s : State) : (s.advanceKey).status = s.status := rfl
@[simp] theorem State.advanceKey_have_i (s : State) : (s.advanceKey).have_i = s.have_i := rfl
@[simp] theorem State.advanceKey_i_reg (s : State) : (s.advanceKey).i_reg = s.i_reg := rfl
@[simp] theorem State.advanceKey_key_idx (s : State) : (s.advanceKey).key_idx = s.key_idx + 1 := rfl
@[simp] theorem State.advanceKey_sr (s : State) : (s.advanceKey).sr = s.sr := rfl
@[simp] theorem State.advanceKey_bit_cnt (s : State) : (s.advanceKey).bit_cnt = s.bit_cnt := rfl
@[simp] theorem State.advanceKey_byte_taint (s : State) : (s.advanceKey).byte_taint = s.byte_taint := rfl
@[simp] theorem State.advanceKey_outq (s : State) : (s.advanceKey).outq = s.outq := rfl
@[simp] theorem State.advanceKey_cnt_samples (s : State) : (s.advanceKey).cnt_samples = s.cnt_samples := rfl
@[simp] theorem State.advanceKey_cnt_pairs (s : State) : (s.advanceKey).cnt_pairs = s.cnt_pairs := rfl
@[simp] theorem State.advanceKey_cnt_ooc (s : State) : (s.advanceKey).cnt_ooc = s.cnt_ooc := rfl
@[simp] theorem State.advanceKey_cnt_bytes (s : State) : (s.advanceKey).cnt_bytes = s.cnt_bytes := rfl
@[simp] theorem State.advanceKey_inputs (s : State) : (s.advanceKey).inputs = s.inputs := rfl
@[simp] theorem State.advanceKey_delivered (s : State) : (s.advanceKey).delivered = s.delivered := rfl
@[simp] theorem State.advanceKey_edge (s : State) : (s.advanceKey).edge = s.edge := rfl

/-! The register writes of RF_SHIFT. -/

@[simp] theorem State.shiftIn_params (s : State) (d t : Bool) : (s.shiftIn d t).params = s.params := rfl
@[simp] theorem State.shiftIn_status (s : State) (d t : Bool) : (s.shiftIn d t).status = s.status := rfl
@[simp] theorem State.shiftIn_have_i (s : State) (d t : Bool) : (s.shiftIn d t).have_i = s.have_i := rfl
@[simp] theorem State.shiftIn_i_reg (s : State) (d t : Bool) : (s.shiftIn d t).i_reg = s.i_reg := rfl
@[simp] theorem State.shiftIn_key_idx (s : State) (d t : Bool) : (s.shiftIn d t).key_idx = s.key_idx := rfl
@[simp] theorem State.shiftIn_sr (s : State) (d t : Bool) : (s.shiftIn d t).sr = shiftByte s.sr d := rfl
@[simp] theorem State.shiftIn_bit_cnt (s : State) (d t : Bool) : (s.shiftIn d t).bit_cnt = s.bit_cnt + 1 := rfl
@[simp] theorem State.shiftIn_byte_taint (s : State) (d t : Bool) : (s.shiftIn d t).byte_taint = (s.byte_taint || t) := rfl
@[simp] theorem State.shiftIn_outq (s : State) (d t : Bool) : (s.shiftIn d t).outq = s.outq := rfl
@[simp] theorem State.shiftIn_cnt_samples (s : State) (d t : Bool) : (s.shiftIn d t).cnt_samples = s.cnt_samples := rfl
@[simp] theorem State.shiftIn_cnt_pairs (s : State) (d t : Bool) : (s.shiftIn d t).cnt_pairs = s.cnt_pairs := rfl
@[simp] theorem State.shiftIn_cnt_ooc (s : State) (d t : Bool) : (s.shiftIn d t).cnt_ooc = s.cnt_ooc := rfl
@[simp] theorem State.shiftIn_cnt_bytes (s : State) (d t : Bool) : (s.shiftIn d t).cnt_bytes = s.cnt_bytes := rfl
@[simp] theorem State.shiftIn_inputs (s : State) (d t : Bool) : (s.shiftIn d t).inputs = s.inputs := rfl
@[simp] theorem State.shiftIn_delivered (s : State) (d t : Bool) : (s.shiftIn d t).delivered = s.delivered := rfl
@[simp] theorem State.shiftIn_edge (s : State) (d t : Bool) : (s.shiftIn d t).edge = s.edge := rfl

/-! Clear the reframer. -/

@[simp] theorem State.clearReframer_params (s : State) : (s.clearReframer).params = s.params := rfl
@[simp] theorem State.clearReframer_status (s : State) : (s.clearReframer).status = s.status := rfl
@[simp] theorem State.clearReframer_have_i (s : State) : (s.clearReframer).have_i = s.have_i := rfl
@[simp] theorem State.clearReframer_i_reg (s : State) : (s.clearReframer).i_reg = s.i_reg := rfl
@[simp] theorem State.clearReframer_key_idx (s : State) : (s.clearReframer).key_idx = s.key_idx := rfl
@[simp] theorem State.clearReframer_sr (s : State) : (s.clearReframer).sr = 0x00#8 := rfl
@[simp] theorem State.clearReframer_bit_cnt (s : State) : (s.clearReframer).bit_cnt = 0 := rfl
@[simp] theorem State.clearReframer_byte_taint (s : State) : (s.clearReframer).byte_taint = false := rfl
@[simp] theorem State.clearReframer_outq (s : State) : (s.clearReframer).outq = s.outq := rfl
@[simp] theorem State.clearReframer_cnt_samples (s : State) : (s.clearReframer).cnt_samples = s.cnt_samples := rfl
@[simp] theorem State.clearReframer_cnt_pairs (s : State) : (s.clearReframer).cnt_pairs = s.cnt_pairs := rfl
@[simp] theorem State.clearReframer_cnt_ooc (s : State) : (s.clearReframer).cnt_ooc = s.cnt_ooc := rfl
@[simp] theorem State.clearReframer_cnt_bytes (s : State) : (s.clearReframer).cnt_bytes = s.cnt_bytes := rfl
@[simp] theorem State.clearReframer_inputs (s : State) : (s.clearReframer).inputs = s.inputs := rfl
@[simp] theorem State.clearReframer_delivered (s : State) : (s.clearReframer).delivered = s.delivered := rfl
@[simp] theorem State.clearReframer_edge (s : State) : (s.clearReframer).edge = s.edge := rfl

/-! Push an entry. -/

@[simp] theorem State.push_params (s : State) (e : Entry) : (s.push e).params = s.params := rfl
@[simp] theorem State.push_status (s : State) (e : Entry) : (s.push e).status = s.status := rfl
@[simp] theorem State.push_have_i (s : State) (e : Entry) : (s.push e).have_i = s.have_i := rfl
@[simp] theorem State.push_i_reg (s : State) (e : Entry) : (s.push e).i_reg = s.i_reg := rfl
@[simp] theorem State.push_key_idx (s : State) (e : Entry) : (s.push e).key_idx = s.key_idx := rfl
@[simp] theorem State.push_sr (s : State) (e : Entry) : (s.push e).sr = s.sr := rfl
@[simp] theorem State.push_bit_cnt (s : State) (e : Entry) : (s.push e).bit_cnt = s.bit_cnt := rfl
@[simp] theorem State.push_byte_taint (s : State) (e : Entry) : (s.push e).byte_taint = s.byte_taint := rfl
@[simp] theorem State.push_outq (s : State) (e : Entry) : (s.push e).outq = s.outq ++ [e] := rfl
@[simp] theorem State.push_cnt_samples (s : State) (e : Entry) : (s.push e).cnt_samples = s.cnt_samples := rfl
@[simp] theorem State.push_cnt_pairs (s : State) (e : Entry) : (s.push e).cnt_pairs = s.cnt_pairs := rfl
@[simp] theorem State.push_cnt_ooc (s : State) (e : Entry) : (s.push e).cnt_ooc = s.cnt_ooc := rfl
@[simp] theorem State.push_cnt_bytes (s : State) (e : Entry) : (s.push e).cnt_bytes = s.cnt_bytes := rfl
@[simp] theorem State.push_inputs (s : State) (e : Entry) : (s.push e).inputs = s.inputs := rfl
@[simp] theorem State.push_delivered (s : State) (e : Entry) : (s.push e).delivered = s.delivered := rfl
@[simp] theorem State.push_edge (s : State) (e : Entry) : (s.push e).edge = s.edge := rfl

/-! The frame-clear set. -/

@[simp] theorem State.frameClear_params (s : State) : (s.frameClear).params = s.params := rfl
@[simp] theorem State.frameClear_status (s : State) : (s.frameClear).status = Status.reset := rfl
@[simp] theorem State.frameClear_have_i (s : State) : (s.frameClear).have_i = false := rfl
@[simp] theorem State.frameClear_i_reg (s : State) : (s.frameClear).i_reg = 0x00#8 := rfl
@[simp] theorem State.frameClear_key_idx (s : State) : (s.frameClear).key_idx = 0 := rfl
@[simp] theorem State.frameClear_sr (s : State) : (s.frameClear).sr = 0x00#8 := rfl
@[simp] theorem State.frameClear_bit_cnt (s : State) : (s.frameClear).bit_cnt = 0 := rfl
@[simp] theorem State.frameClear_byte_taint (s : State) : (s.frameClear).byte_taint = false := rfl
@[simp] theorem State.frameClear_outq (s : State) : (s.frameClear).outq = s.outq := rfl
@[simp] theorem State.frameClear_cnt_samples (s : State) : (s.frameClear).cnt_samples = 0 := rfl
@[simp] theorem State.frameClear_cnt_pairs (s : State) : (s.frameClear).cnt_pairs = 0 := rfl
@[simp] theorem State.frameClear_cnt_ooc (s : State) : (s.frameClear).cnt_ooc = 0 := rfl
@[simp] theorem State.frameClear_cnt_bytes (s : State) : (s.frameClear).cnt_bytes = 0 := rfl
@[simp] theorem State.frameClear_inputs (s : State) : (s.frameClear).inputs = s.inputs := rfl
@[simp] theorem State.frameClear_delivered (s : State) : (s.frameClear).delivered = s.delivered := rfl
@[simp] theorem State.frameClear_edge (s : State) : (s.frameClear).edge = s.edge := rfl

/-! The output pop. -/

@[simp] theorem State.popHead_params (s : State) : (s.popHead).params = s.params := rfl
@[simp] theorem State.popHead_status (s : State) : (s.popHead).status = s.status := rfl
@[simp] theorem State.popHead_have_i (s : State) : (s.popHead).have_i = s.have_i := rfl
@[simp] theorem State.popHead_i_reg (s : State) : (s.popHead).i_reg = s.i_reg := rfl
@[simp] theorem State.popHead_key_idx (s : State) : (s.popHead).key_idx = s.key_idx := rfl
@[simp] theorem State.popHead_sr (s : State) : (s.popHead).sr = s.sr := rfl
@[simp] theorem State.popHead_bit_cnt (s : State) : (s.popHead).bit_cnt = s.bit_cnt := rfl
@[simp] theorem State.popHead_byte_taint (s : State) : (s.popHead).byte_taint = s.byte_taint := rfl
@[simp] theorem State.popHead_outq (s : State) : (s.popHead).outq = s.outq.tail := rfl
@[simp] theorem State.popHead_cnt_samples (s : State) : (s.popHead).cnt_samples = s.cnt_samples := rfl
@[simp] theorem State.popHead_cnt_pairs (s : State) : (s.popHead).cnt_pairs = s.cnt_pairs := rfl
@[simp] theorem State.popHead_cnt_ooc (s : State) : (s.popHead).cnt_ooc = s.cnt_ooc := rfl
@[simp] theorem State.popHead_cnt_bytes (s : State) : (s.popHead).cnt_bytes = s.cnt_bytes := rfl
@[simp] theorem State.popHead_inputs (s : State) : (s.popHead).inputs = s.inputs := rfl
@[simp] theorem State.popHead_delivered (s : State) : (s.popHead).delivered = s.outq.head? := rfl
@[simp] theorem State.popHead_edge (s : State) : (s.popHead).edge = s.edge := rfl

/-! An edge is taken. -/

@[simp] theorem State.takeEdge_params (s : State) : (s.takeEdge).params = s.params := rfl
@[simp] theorem State.takeEdge_status (s : State) : (s.takeEdge).status = s.status := rfl
@[simp] theorem State.takeEdge_have_i (s : State) : (s.takeEdge).have_i = s.have_i := rfl
@[simp] theorem State.takeEdge_i_reg (s : State) : (s.takeEdge).i_reg = s.i_reg := rfl
@[simp] theorem State.takeEdge_key_idx (s : State) : (s.takeEdge).key_idx = s.key_idx := rfl
@[simp] theorem State.takeEdge_sr (s : State) : (s.takeEdge).sr = s.sr := rfl
@[simp] theorem State.takeEdge_bit_cnt (s : State) : (s.takeEdge).bit_cnt = s.bit_cnt := rfl
@[simp] theorem State.takeEdge_byte_taint (s : State) : (s.takeEdge).byte_taint = s.byte_taint := rfl
@[simp] theorem State.takeEdge_outq (s : State) : (s.takeEdge).outq = s.outq := rfl
@[simp] theorem State.takeEdge_cnt_samples (s : State) : (s.takeEdge).cnt_samples = s.cnt_samples := rfl
@[simp] theorem State.takeEdge_cnt_pairs (s : State) : (s.takeEdge).cnt_pairs = s.cnt_pairs := rfl
@[simp] theorem State.takeEdge_cnt_ooc (s : State) : (s.takeEdge).cnt_ooc = s.cnt_ooc := rfl
@[simp] theorem State.takeEdge_cnt_bytes (s : State) : (s.takeEdge).cnt_bytes = s.cnt_bytes := rfl
@[simp] theorem State.takeEdge_inputs (s : State) : (s.takeEdge).inputs = s.inputs.tail := rfl
@[simp] theorem State.takeEdge_delivered (s : State) : (s.takeEdge).delivered = none := rfl
@[simp] theorem State.takeEdge_edge (s : State) : (s.takeEdge).edge = s.edge + 1 := rfl

/-! The reset edge. -/

@[simp] theorem State.resetEdge_params (s : State) : (s.resetEdge).params = s.params := rfl
@[simp] theorem State.resetEdge_status (s : State) : (s.resetEdge).status = Status.reset := rfl
@[simp] theorem State.resetEdge_have_i (s : State) : (s.resetEdge).have_i = false := rfl
@[simp] theorem State.resetEdge_i_reg (s : State) : (s.resetEdge).i_reg = 0x00#8 := rfl
@[simp] theorem State.resetEdge_key_idx (s : State) : (s.resetEdge).key_idx = 0 := rfl
@[simp] theorem State.resetEdge_sr (s : State) : (s.resetEdge).sr = 0x00#8 := rfl
@[simp] theorem State.resetEdge_bit_cnt (s : State) : (s.resetEdge).bit_cnt = 0 := rfl
@[simp] theorem State.resetEdge_byte_taint (s : State) : (s.resetEdge).byte_taint = false := rfl
@[simp] theorem State.resetEdge_outq (s : State) : (s.resetEdge).outq = [] := rfl
@[simp] theorem State.resetEdge_cnt_samples (s : State) : (s.resetEdge).cnt_samples = 0 := rfl
@[simp] theorem State.resetEdge_cnt_pairs (s : State) : (s.resetEdge).cnt_pairs = 0 := rfl
@[simp] theorem State.resetEdge_cnt_ooc (s : State) : (s.resetEdge).cnt_ooc = 0 := rfl
@[simp] theorem State.resetEdge_cnt_bytes (s : State) : (s.resetEdge).cnt_bytes = 0 := rfl
@[simp] theorem State.resetEdge_inputs (s : State) : (s.resetEdge).inputs = s.inputs := rfl
@[simp] theorem State.resetEdge_delivered (s : State) : (s.resetEdge).delivered = none := rfl
@[simp] theorem State.resetEdge_edge (s : State) : (s.resetEdge).edge = s.edge := rfl

/-! Fields of the STATUS that `sat_inc` leaves: only CNT_SAT can change. -/

@[simp] theorem State.satStatus_done (s : State) (c : Nat) : (s.satStatus c).done = s.status.done := rfl
@[simp] theorem State.satStatus_no_data (s : State) (c : Nat) : (s.satStatus c).no_data = s.status.no_data := rfl
@[simp] theorem State.satStatus_src_err (s : State) (c : Nat) : (s.satStatus c).src_err = s.status.src_err := rfl
@[simp] theorem State.satStatus_orphan (s : State) (c : Nat) : (s.satStatus c).orphan = s.status.orphan := rfl
@[simp] theorem State.satStatus_ooc (s : State) (c : Nat) : (s.satStatus c).ooc = s.status.ooc := rfl
@[simp] theorem State.satStatus_seq_err (s : State) (c : Nat) : (s.satStatus c).seq_err = s.status.seq_err := rfl
@[simp] theorem State.satStatus_residual (s : State) (c : Nat) : (s.satStatus c).residual = s.status.residual := rfl
@[simp] theorem State.satStatus_cnt_sat (s : State) (c : Nat) :
    (s.satStatus c).cnt_sat = (s.status.cnt_sat || satHit s.params.cntW c) := rfl

end Sys2Proof.Machine
end

