-- ==== Sys2Proof/Laws/Ops.lean ====
section
/-! SUPPORT. What each shared operation can do, said once: the shift of a bit and of a nibble, the counters,
the reframer, one turn of the pair step's loop, the close of a frame, a beat, and an edge. -/

namespace Sys2Proof.Machine

/-! ## Shifts -/

theorem getLsbD_shiftByte (sr : Byte) (d : Bool) (i : Nat) :
    (shiftByte sr d).getLsbD i = if i = 0 then d else (decide (i < 8) && sr.getLsbD (i - 1)) := by
  unfold shiftByte
  rw [BitVec.getLsbD_append]
  rcases i with _ | i
  · simp
  · have : (i < 7) = (i + 1 < 8) := by simp; omega
    simp [BitVec.getLsbD_extractLsb', this]

theorem getLsbD_shiftNibble (sr : Byte) (n : BitVec 4) (i : Nat) :
    (shiftNibble sr n).getLsbD i = if i < 4 then n.getLsbD i else (decide (i < 8) && sr.getLsbD (i - 4)) := by
  unfold shiftNibble
  rw [BitVec.getLsbD_append]
  by_cases h : i < 4
  · simp [h]
  · have : (i - 4 < 4) = (i < 8) := by simp; omega
    simp [h, BitVec.getLsbD_extractLsb', this]

/-! ## Counters -/

theorem satValue_of_max {w c : Nat} (h : c = 2 ^ w - 1) : satValue w c = c := by simp [satValue, h]

theorem satValue_of_ne_max {w c : Nat} (h : c ≠ 2 ^ w - 1) : satValue w c = c + 1 := by simp [satValue, h]

theorem satHit_iff (w c : Nat) : satHit w c = true ↔ c = 2 ^ w - 1 := by simp [satHit]

/-- A counter never falls, and a counter that fits its width still fits after `sat_inc`. -/
theorem satValue_bounds (w c : Nat) : c ≤ satValue w c ∧ (c < 2 ^ w → satValue w c < 2 ^ w) := by
  unfold satValue
  split <;> omega

/-! ## Reframer -/

/-- RF_EMIT as one update: the byte is pushed and counted, the reframer cleared. -/
theorem State.rfEmit_eq (s : State) : s.rfEmit = { s with
    outq := s.outq ++ [{ byte := s.sr, taint := s.byte_taint }]
    cnt_bytes := satValue s.params.cntW s.cnt_bytes
    status := { s.status with cnt_sat := s.status.cnt_sat || satHit s.params.cntW s.cnt_bytes }
    sr := 0x00#8
    bit_cnt := 0
    byte_taint := false } := rfl

theorem State.rfShift_within (s : State) (d t : Bool) (h : s.bit_cnt ≠ 7) : s.rfShift d t = { s with
    sr := shiftByte s.sr d
    bit_cnt := s.bit_cnt + 1
    byte_taint := s.byte_taint || t } := by
  simp [State.rfShift, h, State.shiftIn]

theorem State.rfShift_last (s : State) (d t : Bool) (h : s.bit_cnt = 7) : s.rfShift d t = { s with
    outq := s.outq ++ [{ byte := shiftByte s.sr d, taint := s.byte_taint || t }]
    cnt_bytes := satValue s.params.cntW s.cnt_bytes
    status := { s.status with cnt_sat := s.status.cnt_sat || satHit s.params.cntW s.cnt_bytes }
    sr := 0x00#8
    bit_cnt := 0
    byte_taint := false } := by
  simp [State.rfShift, h, State.rfEmit_eq, State.shiftIn]

theorem State.rfDrop_eq (s : State) : s.rfDrop = { s with
    status := { s.status with residual := BitVec.ofNat 4 s.bit_cnt.val }
    sr := 0x00#8
    bit_cnt := 0
    byte_taint := false } := rfl

/-! ## The pair step's loop -/

theorem State.bitStep_eq (s : State) (t b : Bool) :
    s.bitStep t b = s.advanceKey.rfShift (b ^^ key s.key_idx) t := rfl

/-- A turn of the loop that completes no byte. -/
theorem State.bitStep_within (s : State) (t b : Bool) (h : s.bit_cnt ≠ 7) : s.bitStep t b = { s with
    key_idx := s.key_idx + 1
    sr := shiftByte s.sr (b ^^ key s.key_idx)
    bit_cnt := s.bit_cnt + 1
    byte_taint := s.byte_taint || t } := by
  rw [State.bitStep_eq, State.rfShift_within s.advanceKey _ _ h]
  rfl

/-- A turn of the loop that completes a byte. -/
theorem State.bitStep_last (s : State) (t b : Bool) (h : s.bit_cnt = 7) : s.bitStep t b = { s with
    key_idx := s.key_idx + 1
    outq := s.outq ++ [{ byte := shiftByte s.sr (b ^^ key s.key_idx), taint := s.byte_taint || t }]
    cnt_bytes := satValue s.params.cntW s.cnt_bytes
    status := { s.status with cnt_sat := s.status.cnt_sat || satHit s.params.cntW s.cnt_bytes }
    sr := 0x00#8
    bit_cnt := 0
    byte_taint := false } := by
  rw [State.bitStep_eq, State.rfShift_last s.advanceKey _ _ h]
  rfl

theorem State.shiftSymbol_eq (s : State) (sym : Symbol) (t : Bool) :
    s.shiftSymbol sym t
      = State.bitStep t (State.bitStep t (State.bitStep t (State.bitStep t s (sym.getLsbD 3)) (sym.getLsbD 2))
          (sym.getLsbD 1)) (sym.getLsbD 0) := rfl

/-- The registers that the loop never writes. -/
theorem State.bitStep_frame (s : State) (t b : Bool) :
    (s.bitStep t b).params = s.params ∧ (s.bitStep t b).have_i = s.have_i ∧ (s.bitStep t b).i_reg = s.i_reg
    ∧ (s.bitStep t b).cnt_samples = s.cnt_samples ∧ (s.bitStep t b).cnt_pairs = s.cnt_pairs
    ∧ (s.bitStep t b).cnt_ooc = s.cnt_ooc ∧ (s.bitStep t b).inputs = s.inputs
    ∧ (s.bitStep t b).delivered = s.delivered ∧ (s.bitStep t b).edge = s.edge := by
  by_cases h : s.bit_cnt = 7
  · rw [State.bitStep_last s t b h]; simp
  · rw [State.bitStep_within s t b h]; simp

/-- What the loop over one symbol can do: from fewer than four bits held it emits nothing, and from four bits on
it emits one byte. The bits shifted, and so the byte emitted, depend only on the symbol, the key index and the
bits held, and never on taint. -/
theorem State.shiftSymbol_cases (k : Fin 13) (sr : Byte) (c : Fin 8) (sym : Symbol) :
    ∃ byte sr' : Byte, ∀ (s : State) (t : Bool), s.key_idx = k → s.sr = sr → s.bit_cnt = c →
      (c < 4 → s.shiftSymbol sym t = { s with
        key_idx := k + 4
        sr := sr'
        bit_cnt := c + 4
        byte_taint := s.byte_taint || t })
      ∧ (4 ≤ c → s.shiftSymbol sym t = { s with
        key_idx := k + 4
        outq := s.outq ++ [{ byte := byte, taint := s.byte_taint || t }]
        cnt_bytes := satValue s.params.cntW s.cnt_bytes
        status := { s.status with cnt_sat := s.status.cnt_sat || satHit s.params.cntW s.cnt_bytes }
        sr := sr'
        bit_cnt := c + 4
        byte_taint := decide (c ≠ 4) && t }) := by
  let d3 := sym.getLsbD 3 ^^ key k
  let d2 := sym.getLsbD 2 ^^ key (k + 1)
  let d1 := sym.getLsbD 1 ^^ key (k + 1 + 1)
  let d0 := sym.getLsbD 0 ^^ key (k + 1 + 1 + 1)
  have hk : k + 1 + 1 + 1 + 1 = k + 4 := by revert k; decide
  fin_cases c <;> [
    refine ⟨0x00#8, shiftByte (shiftByte (shiftByte (shiftByte sr d3) d2) d1) d0, ?_⟩;
    refine ⟨0x00#8, shiftByte (shiftByte (shiftByte (shiftByte sr d3) d2) d1) d0, ?_⟩;
    refine ⟨0x00#8, shiftByte (shiftByte (shiftByte (shiftByte sr d3) d2) d1) d0, ?_⟩;
    refine ⟨0x00#8, shiftByte (shiftByte (shiftByte (shiftByte sr d3) d2) d1) d0, ?_⟩;
    refine ⟨shiftByte (shiftByte (shiftByte (shiftByte sr d3) d2) d1) d0, 0x00#8, ?_⟩;
    refine ⟨shiftByte (shiftByte (shiftByte sr d3) d2) d1, shiftByte 0x00#8 d0, ?_⟩;
    refine ⟨shiftByte (shiftByte sr d3) d2, shiftByte (shiftByte 0x00#8 d1) d0, ?_⟩;
    refine ⟨shiftByte sr d3, shiftByte (shiftByte (shiftByte 0x00#8 d2) d1) d0, ?_⟩]
  all_goals
    intro s t h1 h2 h3
    refine ⟨fun h => ?_, fun h => ?_⟩ <;> first
      | exact absurd h (by decide)
      | (rw [State.shiftSymbol_eq]
         simp [State.bitStep_within, State.bitStep_last, h1, h2, h3, hk, d0, d1, d2, d3])

/-- The pair step, with the two outcomes of DEMOD apart. -/
theorem State.pairStep_of_valid (s : State) (i q : Byte) {sym : Symbol} (h : demod i q = (sym, true)) :
    s.pairStep i q = s.countPair.shiftSymbol sym false := by
  simp [State.pairStep, h]

theorem State.pairStep_of_ooc (s : State) (i q : Byte) {sym : Symbol} (h : demod i q = (sym, false)) :
    s.pairStep i q = s.countPair.recordOoc.shiftSymbol sym true := by
  simp [State.pairStep, h]

/-! ## Closing a frame -/

/-- CLOSE as one update. -/
theorem State.close_eq (s : State) : s.close = { s with
    status := { s.status with
      orphan := s.status.orphan || s.have_i
      residual := BitVec.ofNat 4 s.bit_cnt.val
      done := true }
    have_i := false
    i_reg := bif s.have_i then 0x00#8 else s.i_reg
    sr := 0x00#8
    bit_cnt := 0
    byte_taint := false } := by
  by_cases h : s.have_i = true
  · simp [State.close, h, State.rfDrop_eq, State.setStatus, State.dropI]
  · have h' : s.have_i = false := by simpa using h
    rw [State.close, if_neg h, h']
    simp [State.rfDrop_eq, State.setStatus]
    exact h'

/-! ## Beats and edges -/

/-- Everything a beat can do: it sets SEQ_ERR while DONE = 1, or runs its own rule. -/
theorem exec_cases {i : Instr} {s t : State} (h : exec i s = .next t) :
    (∃ d, i = .start d ∧ t = s.frameClear)
    ∨ (s.status.done = true ∧ (∀ d, i ≠ .start d) ∧ t = s.seqError)
    ∨ (s.status.done = false ∧ ∃ d, i = .sample d ∧ s.have_i = false ∧ t = s.countSample.holdI d)
    ∨ (s.status.done = false ∧ ∃ d, i = .sample d ∧ s.have_i = true
        ∧ t = s.countSample.dropI.pairStep s.i_reg d)
    ∨ (s.status.done = false ∧ ∃ d, i = .endBeat d ∧ t = s.endRun)
    ∨ (s.status.done = false ∧ ∃ d, i = .srcErr d ∧ t = s.srcErrRun) := by
  cases i with
  | sample d =>
    by_cases hd : s.status.done = true
    · simp [exec, execSample, hd] at h
      simp [hd, h]
    · have hd : s.status.done = false := by simpa using hd
      by_cases hi : s.have_i = true
      · simp [exec, execSample, hd, State.sampleRun, hi] at h
        simp [hd, hi, h]
      · have hi : s.have_i = false := by simpa using hi
        simp [exec, execSample, hd, State.sampleRun, hi] at h
        simp [hd, hi, h]
  | endBeat d =>
    by_cases hd : s.status.done = true
    · simp [exec, execEnd, hd] at h; simp [hd, h]
    · simp [exec, execEnd, hd] at h; simp [hd, h]
  | srcErr d =>
    by_cases hd : s.status.done = true
    · simp [exec, execSrcErr, hd] at h; simp [hd, h]
    · simp [exec, execSrcErr, hd] at h; simp [hd, h]
  | start d =>
    simp [exec, execStart] at h
    simp [h]

/-- Everything an edge can do: a reset, an accepted beat after the pop, or the pop alone. -/
theorem step_cases {s t : State} (h : step s = .next t) :
    (s.portIn.rst = true ∧ s.acceptedNow = none ∧ t = s.takeEdge.resetEdge)
    ∨ (s.portIn.rst = false ∧ ∃ i, s.acceptedNow = some i ∧ s.outq.length < s.params.outDepth
        ∧ i = decode s.portIn.in_word ∧ exec i (s.takeEdge.popIf s.portIn.out_ready) = .next t)
    ∨ (s.portIn.rst = false ∧ s.acceptedNow = none ∧ t = s.takeEdge.popIf s.portIn.out_ready) := by
  unfold step State.edgeStep at h
  by_cases hr : s.portIn.rst = true
  · rw [if_pos hr] at h
    have := Host.Outcome.next.inj h
    simp [hr, this, State.acceptedNow, State.accepts]
  · have hr : s.portIn.rst = false := by simpa using hr
    have hrdy : s.takeEdge.inReady = s.inReady := rfl
    by_cases ha : s.accepts s.portIn = true
    · have hacc : s.takeEdge.accepts s.portIn = true := ha
      have hq : s.outq.length < s.params.outDepth := by
        simp [State.accepts, State.inReady] at ha
        exact ha.2
      simp [hr, hacc] at h
      simp [hr, State.acceptedNow, ha, h, hq]
    · have hacc : ¬ s.takeEdge.accepts s.portIn = true := ha
      simp [hr, hacc] at h
      simp [hr, State.acceptedNow, ha, h]

end Sys2Proof.Machine
end

