-- ==== Sys2Proof/Laws/PerInstr.lean ====
section
/-! SUPPORT. A law of every instruction as syntax: the word that encodes it lies in its row of the opcode table
and carries its data (30_encoding.md R80, R82). -/

namespace Sys2Proof.Laws.BeatWord

/-- The match value of an instruction's row of the opcode table (30_encoding.md R82). -/
def rowMatch : Instr → Word10
  | .sample _ => 0x000#10
  | .endBeat _ => 0x100#10
  | .srcErr _ => 0x200#10
  | .start _ => 0x300#10

/-- The data field of an instruction (30_encoding.md R80). -/
def rowData : Instr → Byte
  | .sample d => d
  | .endBeat d => d
  | .srcErr d => d
  | .start d => d

/-- The instruction is well formed, and its word agrees with its row's match under the mask 0x300 and holds
its data in bits 7:0. -/
def Statement (i : Instr) : Prop :=
  i.wellFormed = true ∧ encode i &&& 0x300#10 = rowMatch i ∧ dataField (encode i) = rowData i

theorem sample (data : Byte) : Statement (.sample data) := by
  unfold Statement
  decide +revert

theorem endBeat (data : Byte) : Statement (.endBeat data) := by
  unfold Statement
  decide +revert

theorem srcErr (data : Byte) : Statement (.srcErr data) := by
  unfold Statement
  decide +revert

theorem start (data : Byte) : Statement (.start data) := by
  unfold Statement
  decide +revert

end Sys2Proof.Laws.BeatWord
end

