-- ==== Sys2Proof/Tests/Slice0.lean ====
section
/-! SUPPORT. Tests: the spec's own vectors (95_test_vectors.md) and encodings (30_encoding.md R82, R94), one beat
or one operation at a time, and for each statement with hypotheses a concrete state and operands that meet
them together (the theorems `witness_…`, each named after its statement). -/

namespace Sys2Proof.Tests

open Sys2Proof Sys2Proof.Machine

/-- Whether an outcome is a next state with the property `f`. -/
def after (o : Host.Outcome State Fault Refusal) (f : State → Bool) : Bool :=
  match o with
  | .next t => f t
  | _ => false

/-- The reset state with this sample held as the I rail. -/
def holding (v : Byte) : State := State.reset.holdI v

/-- The reset state with the frame closed. -/
def closed : State := State.reset.setStatus { Status.reset with done := true }

/-- The state after vector ST2: the reframer holds the nibble 0xB, and these four registers have moved. -/
def halfByte : State :=
  { State.reset with key_idx := 4, sr := 0x0B#8, bit_cnt := 4, cnt_samples := 2, cnt_pairs := 1 }

/-- Two entries, as many as the default queue holds (vector ST13). -/
def twoEntries : List Entry := [{ byte := 0x47#8, taint := false }, { byte := 0x5A#8, taint := false }]

/-- The reset state with a full queue. -/
def full : State := { State.reset with outq := twoEntries }

/-- An edge at which the host takes a byte. -/
def takes : PortIn := { PortIn.idle with out_ready := true }

/-- A reset edge at which the host offers a beat as well (vector RS1). -/
def resets : PortIn := { PortIn.offer 0x0FD#10 with rst := true, out_ready := true }

/-! ## WellFormed smoke tests: each check refuses an ill-formed term -/

theorem test_params_default_legal : Params.default.wellFormed = true := by decide
theorem test_params_no_queue_refused : ({ outDepth := 0, cntW := 32 } : Params).wellFormed = false := by decide
theorem test_params_narrow_counter_refused : ({ outDepth := 2, cntW := 3 } : Params).wellFormed = false := by decide
theorem test_params_least_legal : ({ outDepth := 1, cntW := 4 } : Params).wellFormed = true := by decide
theorem test_instr_any_data_legal : (Instr.endBeat 0xFF#8).wellFormed = true := by decide

/-! ## Decoding: words written out bit by bit from 30_encoding.md R80, R82 -/

theorem test_decode_sample_bits : decode 0b0011111101#10 = .sample 0xFD#8 := by decide
theorem test_decode_end_bits : decode 0b0100000000#10 = .endBeat 0x00#8 := by decide
theorem test_decode_srcerr_bits : decode 0b1000000000#10 = .srcErr 0x00#8 := by decide
theorem test_decode_start_bits : decode 0b1100000000#10 = .start 0x00#8 := by decide
/-- Vector ST14: END with the data 0xFF is END. -/
theorem test_decode_end_ignores_no_bit : decode 0b0111111111#10 = .endBeat 0xFF#8 := by decide
theorem test_encode_start : encode (.start 0x00#8) = 0x300#10 := by decide
theorem test_table_word : decodeTableWord 16 0x27F = some (.srcErr 0x7F#8) := by decide
theorem test_word_with_eleven_bits_refused : decodeNat 0x400 = .error .widerThanBeatWord := by decide

/-! ## SAMPLE -/

/-- Vector ST1. -/
theorem test_sample_holds_i : after (exec (.sample 0xFD#8) State.reset)
    (fun t => t.have_i && t.i_reg == 0xFD#8 && t.cnt_samples == 1 && t.status.word == 0x0000#16) = true := by decide
/-- Vector ST2. -/
theorem test_sample_completes_pair : after (exec (.sample 0xFD#8) (holding 0xFD#8))
    (fun t => t.key_idx == 4 && t.sr == 0x0B#8 && t.bit_cnt == 4 && !t.have_i && t.i_reg == 0x00#8) = true := by
  decide

/-! ## END -/

/-- Vector ST5. -/
theorem test_end_records_residual : after (exec (.endBeat 0x00#8) halfByte)
    (fun t => t.status.word == 0x0401#16 && t.bit_cnt == 0 && t.sr == 0x00#8) = true := by decide
/-- Vector ST3, with the data of vector ST14. -/
theorem test_end_of_empty_frame : after (exec (.endBeat 0xFF#8) State.reset)
    (fun t => t.status.word == 0x0003#16) = true := by decide

/-! ## SRCERR -/

/-- Vector ST6. -/
theorem test_srcerr_first : after (exec (.srcErr 0x00#8) State.reset)
    (fun t => t.status.word == 0x0005#16) = true := by decide
/-- Vector ST7. -/
theorem test_srcerr_drops_half_byte : after (exec (.srcErr 0x00#8) halfByte)
    (fun t => t.status.word == 0x0405#16) = true := by decide

/-! ## START -/

/-- Vector ST10. -/
theorem test_start_keeps_queue : after
    (exec (.start 0x00#8) { closed with
      status := { Status.reset with done := true, orphan := true, ooc := true }
      outq := [{ byte := 0xB8#8, taint := true }] })
    (fun t => t.status.word == 0x0000#16 && t.outq == [{ byte := 0xB8#8, taint := true }]) = true := by decide
/-- Vector ST11. -/
theorem test_start_abandons_frame : after (exec (.start 0x00#8) (holding 0xFD#8))
    (fun t => decide (t = State.reset)) = true := by decide

/-! ## Edges -/

/-- Vectors ST12 and P4, beat 9: a full queue holds the beat, and the pop of the same edge happens. -/
theorem test_full_queue_holds_beat : after (step { full with
      inputs := [{ PortIn.offer 0x001#10 with out_ready := true }] })
    (fun t => !t.have_i && t.delivered == some { byte := 0x47#8, taint := false } && t.outq.length == 1) = true := by
  decide
/-- Vector RS1. -/
theorem test_reset_edge : after (step { halfByte with outq := twoEntries, inputs := [resets] })
    (fun t => decide ({ t with edge := 0 } = State.reset)) = true := by decide
/-- The word that `withFetchWord` places is the beat of the next edge. -/
theorem test_placed_word_runs : after (step (State.reset.withFetchWord 16 0x100))
    (fun t => t.status.word == 0x0003#16) = true := by decide
/-- Vector ST8. -/
theorem test_beat_after_close : after (exec (.sample 0x01#8) closed)
    (fun t => t.status.word == 0x0021#16 && t.cnt_samples == 0) = true := by decide
/-- Vector ST15. -/
theorem test_counter_saturates : after
    (exec (.sample 0x01#8) { State.reset with params := { outDepth := 2, cntW := 4 }, cnt_samples := 15 })
    (fun t => t.cnt_samples == 15 && t.status.word == 0x0040#16 && t.have_i) = true := by decide

/-! ## Stages -/

/-- Vector DM3. -/
theorem test_out_of_constellation : demod 0x00#8 0xFD#8 = (0#4, false) := by decide
/-- The example of 40_demodulator.md R102. -/
theorem test_demod_swapped_rails : demod 0x01#8 0xFD#8 = (12#4, true) ∧ demod 0xFD#8 0x01#8 = (2#4, true) := by decide
/-- Vector DM2. -/
theorem test_validity : [0x00#8, 0x02#8, 0x04#8, 0x05#8, 0x7F#8, 0x80#8, 0xFB#8, 0xFE#8].any valid = false := by decide
/-- The example of 41_bit_assembler.md R120. -/
theorem test_ser : ser 13#4 = [true, true, false, true] := by decide
/-- Vector DS2, the row that wraps. -/
theorem test_key_wraps : (12#4 + 3#4) ^^^ keyNibble 12 = 0xA#4 ∧ (12 : Fin 13) + 4 = 3 := by decide
/-- Vector RF1. -/
theorem test_rf_shift : (halfByte.rfShift true false).sr = 0x17#8 ∧ (halfByte.rfShift true false).bit_cnt = 5
    ∧ (halfByte.rfShift false true).sr = 0x16#8 ∧ (halfByte.rfShift false true).byte_taint = true := by decide
/-- The second pair of program P1 gives the byte 0xB9 (vector V1). -/
theorem test_first_byte_of_the_source : (halfByte.pairStep 0xFD#8 0xFF#8).outq = [{ byte := 0xB9#8, taint := false }]
    ∧ (halfByte.pairStep 0xFD#8 0xFF#8).key_idx = 8 := by decide
/-- The same byte in the batch computation (vector V1). -/
theorem test_batch_first_byte : frameEntries [0xFD#8, 0xFD#8, 0xFD#8, 0xFF#8] = [{ byte := 0xB9#8, taint := false }] := by
  decide
/-- A RESIDUAL of 4 sets STATUS bit 10, one of the bits 8..11 of its code (60_exceptions.md R221; vector ST5). -/
theorem test_residual_code : Anomaly.code .incompleteTrailingBitGroup = [8, 9, 10, 11]
    ∧ ([8, 9, 10, 11].map ({ Status.reset with residual := 4#4 } : Status).word.getLsbD) = [false, false, true, false] := by
  decide
/-- The priority of 60_exceptions.md R231: SourceUnavailable comes before ORPHAN and RESIDUAL. -/
theorem test_host_outcome : ({ Status.reset with done := true, src_err := true, orphan := true, residual := 4#4 } : Status).hostOutcome
    = some .sourceUnavailable := by decide

/-! ## Assembler: 30_encoding.md R90 to R94 -/

theorem test_assemble_sample : assembleText [' ', 's', 'a', 'm', 'p', 'l', 'e', ' ', '-', '3', ' ', ';', 'i']
    = .ok [0x0FD#10] := by decide
theorem test_assemble_pattern : assembleText ['S', 'A', 'M', 'P', 'L', 'E', ' ', '0', 'x', '8', '0'] = .ok [0x080#10] := by decide
theorem test_assemble_sym : assembleText ['S', 'Y', 'M', ' ', '1', '2'] = .ok [0x001#10, 0x0FD#10] := by decide
theorem test_assemble_pair : assembleText ['P', 'A', 'I', 'R', ' ', '1', ',', ' ', '3'] = .ok [0x001#10, 0x003#10] := by decide
theorem test_assemble_comment : assembleText [';', 'E', 'N', 'D'] = .ok [] := by decide
theorem test_assemble_names_the_line : assemble [['E', 'N', 'D'], ['E', 'N', 'D', ' ', '1']]
    = .error (2, .operandNotAllowed) := by decide
theorem test_object_form : objectForm 0x2FD#10 = ['0', 'x', '2', 'F', 'D'] := by decide

/-! ## Witnesses: hypotheses that are met together -/

/-- A state in the middle of a frame meets the invariants: the state after vector ST2. -/
theorem halfByte_inv : halfByte.Inv where
  params_legal := by decide
  nibble_aligned := by decide
  queue_bounded := by decide
  rail_clear := by decide
  reframer_clear := by decide
  done_clear := by decide
  closed_flags := by decide
  no_data_excludes_src_err := by decide
  residual_legal := by decide
  ooc_counted := by decide
  counters_fit := by decide
  saturation := by decide
  ooc_among_pairs := by decide
  samples_parity := by decide
  counting := by decide

/-- A state with the given host inputs. -/
def fed (s : State) (ps : List PortIn) : State := { s with inputs := ps }

/-- An invariant survives a change of the host's inputs. -/
theorem fed_inv {s : State} (h : s.Inv) (ps : List PortIn) : (fed s ps).Inv :=
  { h with }

/-- A closed empty frame with every sticky field that may be set with it, and its invariants below. -/
def closedFull : State :=
  { State.reset with
    status := { done := true, no_data := false, src_err := true, orphan := true, ooc := true, seq_err := true,
                cnt_sat := true, residual := 4#4 }
    params := { outDepth := 2, cntW := 4 }
    cnt_samples := 15
    cnt_pairs := 15
    cnt_ooc := 1
    cnt_bytes := 7 }

theorem closedFull_inv : closedFull.Inv where
  params_legal := by decide
  nibble_aligned := by decide
  queue_bounded := by decide
  rail_clear := by decide
  reframer_clear := by decide
  done_clear := by decide
  closed_flags := by decide
  no_data_excludes_src_err := by decide
  residual_legal := by decide
  ooc_counted := by decide
  counters_fit := by decide
  saturation := by decide
  ooc_among_pairs := by decide
  samples_parity := by decide
  counting := by decide

/-- A frame right after START, with a byte of an earlier frame still in the queue. -/
def opened : State := { State.reset with outq := twoEntries.tail }

theorem opened_inv : opened.Inv where
  params_legal := by decide
  nibble_aligned := by decide
  queue_bounded := by decide
  rail_clear := by decide
  reframer_clear := by decide
  done_clear := by decide
  closed_flags := by decide
  no_data_excludes_src_err := by decide
  residual_legal := by decide
  ooc_counted := by decide
  counters_fit := by decide
  saturation := by decide
  ooc_among_pairs := by decide
  samples_parity := by decide
  counting := by decide

/-- A closed frame that had no sample. -/
def emptyClosed : State := closed.setStatus { Status.reset with done := true, no_data := true }

theorem emptyClosed_inv : emptyClosed.Inv where
  params_legal := by decide
  nibble_aligned := by decide
  queue_bounded := by decide
  rail_clear := by decide
  reframer_clear := by decide
  done_clear := by decide
  closed_flags := by decide
  no_data_excludes_src_err := by decide
  residual_legal := by decide
  ooc_counted := by decide
  counters_fit := by decide
  saturation := by decide
  ooc_among_pairs := by decide
  samples_parity := by decide
  counting := by decide

theorem witness_DecodeInvertsEncode : (Instr.srcErr 0xA5#8).wellFormed = true := by decide

theorem witness_EachMatchRowDecodesToItsBeat :
    0x0FF#10 &&& 0x300#10 = 0x000#10 ∧ 0x1FF#10 &&& 0x300#10 = 0x100#10 ∧ 0x200#10 &&& 0x300#10 = 0x200#10
    ∧ 0x3FF#10 &&& 0x300#10 = 0x300#10 := by decide

/-- A beat is offered to a queue with one place left. -/
theorem witness_StepRunsTheDecodedBeat :
    let s := fed { full with outq := twoEntries.tail } [PortIn.offer 0x0FD#10]
    s.inputs = [PortIn.offer 0x0FD#10] ∧ (PortIn.offer 0x0FD#10).rst = false
    ∧ (PortIn.offer 0x0FD#10).in_valid = true ∧ s.outq.length < s.params.outDepth
    ∧ decode (PortIn.offer 0x0FD#10).in_word = .sample 0xFD#8 ∧ (Instr.sample 0xFD#8).wellFormed = true := by decide

theorem witness_PlacedWordRunsNext :
    State.reset.outq.length < State.reset.params.outDepth ∧ decodeTableWord 16 0x300 = some (.start 0x00#8) := by
  decide

theorem witness_FullQueueAcceptsNoBeat :
    (fed full [PortIn.offer 0x001#10]).inputs = [PortIn.offer 0x001#10] ∧ (PortIn.offer 0x001#10).rst = false
    ∧ full.params.outDepth ≤ full.outq.length := by decide

theorem witness_StepIsTheStepFunction : (fed full [takes, resets]).inputs = takes :: [resets] := by decide

/-- The branch without a beat: a full queue. -/
theorem witness_PopDeliversTheHead :
    (fed full [takes]).inputs = [takes] ∧ takes.rst = false ∧ takes.out_ready = true
    ∧ full.outq = { byte := 0x47#8, taint := false } :: twoEntries.tail := by decide

/-- The branch with a beat: a queue with one place left. -/
theorem witness_PopDeliversTheHead_beat :
    let p := { PortIn.offer 0x001#10 with out_ready := true }
    let s := fed { full with outq := twoEntries.tail } [p]
    s.inputs = [p] ∧ p.rst = false ∧ p.out_ready = true ∧ s.outq = { byte := 0x5A#8, taint := false } :: []
    ∧ p.in_valid = true ∧ s.outq.length < s.params.outDepth := by decide

theorem witness_PopOfEmptyQueueHasNoEffect :
    (fed State.reset [takes]).inputs = [takes] ∧ takes.rst = false ∧ takes.in_valid = false
    ∧ (fed State.reset [takes]).outq = [] := by decide

/-- An explicit idle record with a word on `in_word`, and an empty list of inputs. -/
theorem witness_IdleEdgeKeepsTheState :
    (fed full [{ PortIn.idle with in_word := 0x300#10 }]).portIn
      = { rst := false, in_valid := false, in_word := 0x300#10, out_ready := false }
    ∧ (fed full []).portIn.rst = false ∧ (fed full []).portIn.in_valid = false
    ∧ (fed full []).portIn.out_ready = false := by decide

theorem witness_ResetEdgeResetsEverything : (fed full [resets]).inputs = [resets] ∧ resets.rst = true := by decide

/-- A beat is offered for three edges to a full queue that nobody pops. -/
theorem witness_UnpoppedFullQueueBlocksForEver :
    let s := fed full [PortIn.offer 0x001#10, PortIn.offer 0x001#10, PortIn.offer 0x001#10]
    s.params.outDepth ≤ s.outq.length ∧ s.resetWithin 3 = false ∧ s.popWithin 3 = false := by decide

theorem witness_PopLiftsTheHold :
    let p := { PortIn.offer 0x001#10 with out_ready := true }
    let s := fed full [p, PortIn.offer 0x001#10]
    s.params.wellFormed = true ∧ s.outq.length = s.params.outDepth ∧ s.inputs = p :: PortIn.offer 0x001#10 :: []
    ∧ p.rst = false ∧ p.out_ready = true ∧ (PortIn.offer 0x001#10).rst = false
    ∧ (PortIn.offer 0x001#10).in_valid = true ∧ (PortIn.offer 0x001#10).out_ready = false := by decide

/-- The word is held over a full queue until a pop, and is then the beat accepted. -/
theorem witness_HeldWordIsTheBeatAccepted :
    let s := fed full [{ PortIn.offer 0x001#10 with out_ready := true }, PortIn.offer 0x001#10]
    s.hostHolds 2 = true ∧ s.resetWithin 2 = false ∧ s.portIn.in_valid = true ∧ acceptedBeats 1 s = []
    ∧ acceptedBeats 2 s = [.sample 0x01#8] := by decide

theorem witness_ResetValues : ({ outDepth := 1, cntW := 4 } : Params).wellFormed = true := by decide

theorem witness_PortsShowHeadAndCounters :
    full.outq = { byte := 0x47#8, taint := false } :: twoEntries.tail
    ∧ closedFull.cnt_samples < 2 ^ closedFull.params.cntW ∧ closedFull.cnt_pairs < 2 ^ closedFull.params.cntW
    ∧ closedFull.cnt_ooc < 2 ^ closedFull.params.cntW ∧ closedFull.cnt_bytes < 2 ^ closedFull.params.cntW := by decide

theorem witness_OutOfConstellationPairGivesSymbolZero :
    0xFE#8 ∉ [0xFD#8, 0xFF#8, 0x01#8, 0x03#8] ∧ 0x80#8 ∉ [0xFD#8, 0xFF#8, 0x01#8, 0x03#8] := by decide

theorem witness_LevelGateForms : valid 0xFD#8 = true ∧ valid 0x03#8 = true := by decide

/-- Both nibble boundaries. -/
theorem witness_LaneFormEqualsSerialLoop : State.reset.bit_cnt = 0 ∧ halfByte.bit_cnt = 4 := by decide

theorem witness_EightShiftsEmitTheByte : State.reset.bit_cnt = 0 ∧ State.reset.byte_taint = false := by decide

theorem witness_SampleHoldsTheIRail : halfByte.status.done = false ∧ halfByte.have_i = false := by decide

/-- A valid pair and an out-of-constellation pair. -/
theorem witness_SampleCompletesTheFirstPairOfAByte :
    (holding 0x01#8).status.done = false ∧ (holding 0x01#8).have_i = true ∧ (holding 0x01#8).bit_cnt = 0
    ∧ demod (holding 0x01#8).i_reg 0xFD#8 = (12#4, true) ∧ demod (holding 0x01#8).i_reg 0x00#8 = (0#4, false) := by
  decide

theorem witness_SampleCompletesTheSecondPairOfAByte :
    (halfByte.holdI 0xFD#8).status.done = false ∧ (halfByte.holdI 0xFD#8).have_i = true
    ∧ (halfByte.holdI 0xFD#8).bit_cnt = 4 ∧ demod (halfByte.holdI 0xFD#8).i_reg 0xFF#8 = (1#4, true) := by decide

/-- Both alternatives: a half byte held, which the pair completes, and no bit held. -/
theorem witness_OutOfConstellationPairMovesTheStreamAsSymbolZero :
    (holding 0x01#8).status.done = false ∧ (holding 0x01#8).have_i = true ∧ (holding 0x01#8).bit_cnt < 4
    ∧ (demod (holding 0x01#8).i_reg 0x00#8).2 = false ∧ 4 ≤ (halfByte.holdI 0x00#8).bit_cnt ∧
    (halfByte.holdI 0x00#8).status.done = false ∧ (halfByte.holdI 0x00#8).have_i = true
    ∧ (demod (halfByte.holdI 0x00#8).i_reg 0xFD#8).2 = false := by decide

/-- Both alternatives: a beat that pushes nothing and one that pushes an entry. -/
theorem witness_OneBeatPushesAtMostOneEntry :
    after (exec (.endBeat 0x00#8) full) (fun t => t.outq == full.outq) = true
    ∧ after (exec (.sample 0xFF#8) (halfByte.holdI 0xFD#8)) (fun t => t.outq.length == 1) = true := by decide

theorem witness_EndClosesTheFrame : (halfByte.holdI 0x01#8).status.done = false := by decide

theorem witness_SrcErrClosesTheFrame : (halfByte.holdI 0x01#8).status.done = false := by decide

theorem witness_ResetAndStartDifferOnlyInTheQueue :
    (fed full [resets]).inputs = [resets] ∧ resets.rst = true ∧ after (step (fed full [resets])) (fun _ => true) = true
    ∧ after (exec (.start 0x00#8) (fed full [resets]).takeEdge) (fun t => t.outq == full.outq) = true := by decide

theorem witness_BeatAfterTheCloseOnlySetsSeqErr : closed.status.done = true := by decide

theorem witness_ResetMeetsTheInvariants : ({ outDepth := 1, cntW := 4 } : Params).wellFormed = true := by decide

theorem witness_StepKeepsTheInvariants :
    (fed halfByte [PortIn.offer 0x001#10]).Inv
    ∧ ∃ t, step (fed halfByte [PortIn.offer 0x001#10]) = .next t ∧ t.have_i = true :=
  ⟨fed_inv halfByte_inv _, _, rfl, by decide⟩

/-- Every sticky field but NO_DATA is set, and SAMPLE comes after the close. -/
theorem witness_StatusFieldsAreSticky :
    (fed closedFull [PortIn.offer 0x001#10]).Inv
    ∧ (∃ t, step (fed closedFull [PortIn.offer 0x001#10]) = .next t)
    ∧ (fed closedFull [PortIn.offer 0x001#10]).portIn.rst = false
    ∧ (fed closedFull [PortIn.offer 0x001#10]).acceptedNow = some (.sample 0x01#8)
    ∧ closedFull.status.done = true ∧ closedFull.status.src_err = true ∧ closedFull.status.orphan = true
    ∧ closedFull.status.ooc = true ∧ closedFull.status.seq_err = true ∧ closedFull.status.cnt_sat = true :=
  ⟨fed_inv closedFull_inv _, ⟨_, rfl⟩, by decide, by decide, by decide, by decide, by decide, by decide, by decide,
    by decide⟩

/-- NO_DATA is set, and END comes after the close. -/
theorem witness_StatusFieldsAreSticky_no_data :
    (fed emptyClosed [PortIn.offer 0x100#10]).Inv
    ∧ (∃ t, step (fed emptyClosed [PortIn.offer 0x100#10]) = .next t)
    ∧ (fed emptyClosed [PortIn.offer 0x100#10]).portIn.rst = false
    ∧ (fed emptyClosed [PortIn.offer 0x100#10]).acceptedNow = some (.endBeat 0x00#8)
    ∧ emptyClosed.status.no_data = true :=
  ⟨fed_inv emptyClosed_inv _, ⟨_, rfl⟩, by decide, by decide, by decide⟩

/-- NO_DATA is set by END of an empty frame. -/
theorem witness_EachStatusFieldHasItsOwnBeats_no_data :
    State.reset.status.no_data = false
    ∧ after (step (fed State.reset [PortIn.offer 0x100#10])) (fun t => t.status.no_data && t.status.done) = true := by
  decide

/-- ORPHAN, SRC_ERR and RESIDUAL are set by SRCERR while a sample and a half byte are held. -/
theorem witness_EachStatusFieldHasItsOwnBeats_close :
    (halfByte.holdI 0x01#8).status = Status.reset
    ∧ after (step (fed (halfByte.holdI 0x01#8) [PortIn.offer 0x200#10]))
      (fun t => t.status.orphan && t.status.src_err && t.status.residual == 4#4) = true := by decide

/-- OOC and CNT_SAT are set by a SAMPLE. -/
theorem witness_EachStatusFieldHasItsOwnBeats_sample :
    after (step (fed { holding 0x00#8 with params := { outDepth := 2, cntW := 4 }, cnt_samples := 15 }
        [PortIn.offer 0x001#10])) (fun t => t.status.ooc && t.status.cnt_sat) = true
    ∧ (holding 0x00#8).status = Status.reset := by decide

/-- SEQ_ERR is set by a SAMPLE after the close. -/
theorem witness_EachStatusFieldHasItsOwnBeats_seq_err :
    after (step (fed closed [PortIn.offer 0x001#10])) (fun t => t.status.seq_err) = true
    ∧ closed.status.seq_err = false := by decide

theorem witness_OnlyStartOrResetReopensAFrame :
    closed.status.done = true
    ∧ after (step (fed closed [PortIn.offer 0x300#10])) (fun t => !t.status.done) = true
    ∧ after (step (fed closed [resets])) (fun t => !t.status.done) = true := by decide

theorem witness_CountersNeverFall :
    after (step (fed halfByte [PortIn.offer 0x001#10])) (fun t => t.cnt_samples == 3) = true
    ∧ (fed halfByte [PortIn.offer 0x001#10]).portIn.rst = false
    ∧ (fed halfByte [PortIn.offer 0x001#10]).acceptedNow = some (.sample 0x01#8)
    ∧ halfByte.cnt_samples < 2 ^ halfByte.params.cntW ∧ halfByte.cnt_pairs < 2 ^ halfByte.params.cntW
    ∧ halfByte.cnt_ooc < 2 ^ halfByte.params.cntW ∧ halfByte.cnt_bytes < 2 ^ halfByte.params.cntW := by decide

theorem witness_NoDataComesAlone :
    opened.Inv ∧ opened.status.done = false
    ∧ ∃ t, exec (.endBeat 0x00#8) opened = .next t ∧ t.status.no_data = true :=
  ⟨opened_inv, by decide, _, rfl, by decide⟩

theorem witness_BeatsIgnoreTheQueue :
    after (exec (.sample 0xFF#8) (halfByte.holdI 0xFD#8)) (fun t => t.outq.length == 1) = true := by decide

theorem witness_AcceptedBeatsDetermineTheRun :
    (fed full [takes, PortIn.offer 0x001#10]).resetWithin 2 = false
    ∧ acceptedBeats 2 (fed full [takes, PortIn.offer 0x001#10]) = [.sample 0x01#8]
    ∧ deliveredEntries 2 (fed full [takes, PortIn.offer 0x001#10]) = [{ byte := 0x47#8, taint := false }] := by decide

theorem witness_ByteTaintIsThatOfItsTwoPairs :
    (framePairs [0x00#8, 0x00#8, 0xFD#8, 0xFF#8])[2 * 0]? = some (0x00#8, 0x00#8)
    ∧ (framePairs [0x00#8, 0x00#8, 0xFD#8, 0xFF#8])[2 * 0 + 1]? = some (0xFD#8, 0xFF#8) := by decide

theorem witness_CaptureIsDecodedWhole : State.reset.params.wellFormed = true := by decide

/-- The source's capture (vector V1), from a closed frame, with one byte of an earlier frame still in the queue
and data on START and END. -/
theorem witness_FinishedRunDeliversTheDecodedCapture :
    let s := fed { closed with outq := twoEntries.tail } [PortIn.offer 0x312#10, PortIn.offer 0x0FD#10,
      PortIn.offer 0x0FD#10, takes, PortIn.offer 0x0FD#10, PortIn.offer 0x0FF#10, takes, PortIn.offer 0x134#10]
    s.params.wellFormed = true ∧ s.resetWithin 8 = false
    ∧ after (Host.Core.run core 8 s) (fun t => t.runOver) = true
    ∧ acceptedBeats 8 s = captureBeats 0x12#8 [0xFD#8, 0xFD#8, 0xFD#8, 0xFF#8] 0x34#8
    ∧ deliveredEntries 8 s = twoEntries.tail ++ [{ byte := 0xB9#8, taint := false }] := by decide

/-- An empty capture, likewise. -/
theorem witness_FinishedRunDeliversTheDecodedCapture_empty :
    let s := fed { closed with outq := twoEntries.tail } [PortIn.offer 0x300#10, takes, PortIn.offer 0x100#10]
    s.params.wellFormed = true ∧ s.resetWithin 3 = false
    ∧ after (Host.Core.run core 3 s) (fun t => t.runOver) = true
    ∧ acceptedBeats 3 s = captureBeats 0x00#8 [] 0x00#8 ∧ deliveredEntries 3 s = twoEntries.tail := by decide

/-- The boundary values of each clause. -/
theorem witness_AssemblerRefusals :
    (-129 : Int) < -128 ∧ (127 : Int) < 128 ∧ 0xFF < 0x100
    ∧ trimLine (cutComment ['N', 'O', 'P']) ≠ []
    ∧ readMnemonic ((trimLine (cutComment ['N', 'O', 'P'])).takeWhile fun c => !isBlankChar c) = none
    ∧ assembleText ['E', 'N', 'D'] = .ok [0x100#10] ∧ assembleText ['N', 'O', 'P'] = .error .unknownMnemonic
    ∧ (-128 : Int) ≤ -128 ∧ (-128 : Int) ≤ 127 := by decide

theorem witness_PseudoInstructionsExpand :
    assembleLine .sample [.dec (-128)] = .ok [0x080#10] ∧ assembleLine .sample [.hex 0xFF] = .ok [0x0FF#10]
    ∧ (-1 : Int) < 0 ∧ (15 : Int) < 16 := by decide

end Sys2Proof.Tests
end

section
/-! What the pair step, the beats and the pop leave in each register. -/

namespace Sys2Proof.Machine

/-! ## Counters -/

/-- What a beat other than START does to a counter: it leaves it, or increments it once (10_state.md R40). -/
def CounterStep (w c c' : Nat) : Prop := c' = c ∨ c' = satValue w c

theorem CounterStep.same (w c : Nat) : CounterStep w c c := .inl rfl

theorem CounterStep.increment (w c : Nat) : CounterStep w c (satValue w c) := .inr rfl

theorem CounterStep.increment_if (w c : Nat) (p : Prop) [Decidable p] :
    CounterStep w c (if p then satValue w c else c) := by
  by_cases hp : p <;> simp [CounterStep, hp]

theorem CounterStep.increment_unless (w c : Nat) (p : Prop) [Decidable p] :
    CounterStep w c (if p then c else satValue w c) := by
  by_cases hp : p <;> simp [CounterStep, hp]

theorem CounterStep.le {w c c' : Nat} (h : CounterStep w c c') : c ≤ c' := by
  rcases h with rfl | rfl
  · exact Nat.le_refl _
  · exact (satValue_bounds w c).1

theorem CounterStep.fits {w c c' : Nat} (h : CounterStep w c c') (hc : c < 2 ^ w) : c' < 2 ^ w := by
  rcases h with rfl | rfl
  · exact hc
  · exact (satValue_bounds w c).2 hc

/-- After an increment a counter of at least one bit is not 0. -/
theorem satValue_pos {w : Nat} (hw : 2 ≤ 2 ^ w) (c : Nat) : 0 < satValue w c := by
  by_cases hc : c = 2 ^ w - 1
  · rw [satValue_of_max hc]; omega
  · rw [satValue_of_ne_max hc]; omega

/-! ## The pair step's loop, field by field -/

/-- The loop over one symbol as one update of the state, whatever number of bits the reframer holds: a byte is
counted when at least four were held. -/
theorem State.shiftSymbol_update (s : State) (sym : Symbol) (t : Bool) :
    ∃ (q : List Entry) (sr' : Byte) (taint' : Bool),
      q.length ≤ s.outq.length + 1 ∧ s.shiftSymbol sym t = { s with
        key_idx := s.key_idx + 4
        bit_cnt := s.bit_cnt + 4
        sr := sr'
        byte_taint := taint'
        outq := q
        cnt_bytes := if 4 ≤ s.bit_cnt then satValue s.params.cntW s.cnt_bytes else s.cnt_bytes
        status := { s.status with
          cnt_sat := s.status.cnt_sat || (decide (4 ≤ s.bit_cnt) && satHit s.params.cntW s.cnt_bytes) } } := by
  obtain ⟨byte, sr', h⟩ := State.shiftSymbol_cases s.key_idx s.sr s.bit_cnt sym
  obtain ⟨hfirst, hsecond⟩ := h s t rfl rfl rfl
  by_cases hc : 4 ≤ s.bit_cnt
  · exact ⟨s.outq ++ [⟨byte, s.byte_taint || t⟩], sr', decide (s.bit_cnt ≠ 4) && t, by simp,
      by rw [hsecond hc]; simp [hc]⟩
  · exact ⟨s.outq, sr', s.byte_taint || t, by simp, by rw [hfirst (not_le.mp hc)]; simp [hc]⟩

section
variable (s : State) (sym : Symbol) (t : Bool)

@[simp] theorem State.shiftSymbol_params : (s.shiftSymbol sym t).params = s.params := by
  obtain ⟨_, _, _, _, h⟩ := s.shiftSymbol_update sym t
  rw [h]

@[simp] theorem State.shiftSymbol_have_i : (s.shiftSymbol sym t).have_i = s.have_i := by
  obtain ⟨_, _, _, _, h⟩ := s.shiftSymbol_update sym t
  rw [h]

@[simp] theorem State.shiftSymbol_i_reg : (s.shiftSymbol sym t).i_reg = s.i_reg := by
  obtain ⟨_, _, _, _, h⟩ := s.shiftSymbol_update sym t
  rw [h]

@[simp] theorem State.shiftSymbol_key_idx : (s.shiftSymbol sym t).key_idx = s.key_idx + 4 := by
  obtain ⟨_, _, _, _, h⟩ := s.shiftSymbol_update sym t
  rw [h]

@[simp] theorem State.shiftSymbol_bit_cnt : (s.shiftSymbol sym t).bit_cnt = s.bit_cnt + 4 := by
  obtain ⟨_, _, _, _, h⟩ := s.shiftSymbol_update sym t
  rw [h]

@[simp] theorem State.shiftSymbol_cnt_samples : (s.shiftSymbol sym t).cnt_samples = s.cnt_samples := by
  obtain ⟨_, _, _, _, h⟩ := s.shiftSymbol_update sym t
  rw [h]

@[simp] theorem State.shiftSymbol_cnt_pairs : (s.shiftSymbol sym t).cnt_pairs = s.cnt_pairs := by
  obtain ⟨_, _, _, _, h⟩ := s.shiftSymbol_update sym t
  rw [h]

@[simp] theorem State.shiftSymbol_cnt_ooc : (s.shiftSymbol sym t).cnt_ooc = s.cnt_ooc := by
  obtain ⟨_, _, _, _, h⟩ := s.shiftSymbol_update sym t
  rw [h]

@[simp] theorem State.shiftSymbol_cnt_bytes : (s.shiftSymbol sym t).cnt_bytes
    = if 4 ≤ s.bit_cnt then satValue s.params.cntW s.cnt_bytes else s.cnt_bytes := by
  obtain ⟨_, _, _, _, h⟩ := s.shiftSymbol_update sym t
  rw [h]

@[simp] theorem State.shiftSymbol_status : (s.shiftSymbol sym t).status = { s.status with
    cnt_sat := s.status.cnt_sat || (decide (4 ≤ s.bit_cnt) && satHit s.params.cntW s.cnt_bytes) } := by
  obtain ⟨_, _, _, _, h⟩ := s.shiftSymbol_update sym t
  rw [h]

theorem State.shiftSymbol_outq_length : (s.shiftSymbol sym t).outq.length ≤ s.outq.length + 1 := by
  obtain ⟨_, _, _, hq, h⟩ := s.shiftSymbol_update sym t
  rw [h]
  exact hq

end

/-- A turn of the loop that ends with no bit held has emitted a byte, and so has cleared the reframer. -/
theorem State.bitStep_reframer_clear (s : State) (t b : Bool) (h : (s.bitStep t b).bit_cnt = 0) :
    (s.bitStep t b).sr = 0x00#8 ∧ (s.bitStep t b).byte_taint = false := by
  by_cases h7 : s.bit_cnt = 7
  · simp [State.bitStep_last s t b h7]
  · rw [State.bitStep_within s t b h7] at h
    have : ∀ c : Fin 8, c ≠ 7 → c + 1 ≠ 0 := by decide
    exact absurd h (this _ h7)

theorem State.shiftSymbol_reframer_clear (s : State) (sym : Symbol) (t : Bool)
    (h : (s.shiftSymbol sym t).bit_cnt = 0) :
    (s.shiftSymbol sym t).sr = 0x00#8 ∧ (s.shiftSymbol sym t).byte_taint = false := by
  rw [State.shiftSymbol_eq] at h ⊢
  exact State.bitStep_reframer_clear _ _ _ h

/-! ## The record of a pair, field by field -/

@[simp] theorem State.recordOoc_status (s : State) : s.recordOoc.status = { s.status with
    ooc := true
    cnt_sat := s.status.cnt_sat || satHit s.params.cntW s.cnt_ooc } := rfl

/-- The counts and the record of one pair, before its bits are shifted (44_stream_control.md R182). -/
def State.recordPair (s : State) (ok : Bool) : State := if ok then s.countPair else s.countPair.recordOoc

section
variable (s : State) (ok : Bool)

@[simp] theorem State.recordPair_params : (s.recordPair ok).params = s.params := by cases ok <;> rfl
@[simp] theorem State.recordPair_have_i : (s.recordPair ok).have_i = s.have_i := by cases ok <;> rfl
@[simp] theorem State.recordPair_i_reg : (s.recordPair ok).i_reg = s.i_reg := by cases ok <;> rfl
@[simp] theorem State.recordPair_key_idx : (s.recordPair ok).key_idx = s.key_idx := by cases ok <;> rfl
@[simp] theorem State.recordPair_bit_cnt : (s.recordPair ok).bit_cnt = s.bit_cnt := by cases ok <;> rfl
@[simp] theorem State.recordPair_outq : (s.recordPair ok).outq = s.outq := by cases ok <;> rfl
@[simp] theorem State.recordPair_cnt_samples : (s.recordPair ok).cnt_samples = s.cnt_samples := by cases ok <;> rfl
@[simp] theorem State.recordPair_cnt_bytes : (s.recordPair ok).cnt_bytes = s.cnt_bytes := by cases ok <;> rfl
@[simp] theorem State.recordPair_cnt_pairs :
    (s.recordPair ok).cnt_pairs = satValue s.params.cntW s.cnt_pairs := by cases ok <;> rfl
@[simp] theorem State.recordPair_cnt_ooc :
    (s.recordPair ok).cnt_ooc = if ok then s.cnt_ooc else satValue s.params.cntW s.cnt_ooc := by cases ok <;> rfl
@[simp] theorem State.recordPair_status : (s.recordPair ok).status = { s.status with
    ooc := s.status.ooc || !ok
    cnt_sat := s.status.cnt_sat || satHit s.params.cntW s.cnt_pairs || (!ok && satHit s.params.cntW s.cnt_ooc) } := by
  cases ok <;> simp [State.recordPair, State.satStatus]

end

/-! ## The Q rail of SAMPLE -/

/-- SAMPLE on the Q rail: the pair is completed (44_stream_control.md R181). -/
def State.completePair (s : State) (v : Byte) : State := s.countSample.dropI.pairStep s.i_reg v

section
variable (s : State) (v : Byte)

theorem State.completePair_eq : s.completePair v
    = (s.countSample.dropI.recordPair (demod s.i_reg v).2).shiftSymbol (demod s.i_reg v).1
      (!(demod s.i_reg v).2) := rfl

@[simp] theorem State.completePair_params : (s.completePair v).params = s.params := by simp [State.completePair_eq]
@[simp] theorem State.completePair_have_i : (s.completePair v).have_i = false := by simp [State.completePair_eq]
@[simp] theorem State.completePair_i_reg : (s.completePair v).i_reg = 0x00#8 := by simp [State.completePair_eq]
@[simp] theorem State.completePair_key_idx : (s.completePair v).key_idx = s.key_idx + 4 := by
  simp [State.completePair_eq]
@[simp] theorem State.completePair_bit_cnt : (s.completePair v).bit_cnt = s.bit_cnt + 4 := by
  simp [State.completePair_eq]
@[simp] theorem State.completePair_cnt_samples :
    (s.completePair v).cnt_samples = satValue s.params.cntW s.cnt_samples := by simp [State.completePair_eq]
@[simp] theorem State.completePair_cnt_pairs :
    (s.completePair v).cnt_pairs = satValue s.params.cntW s.cnt_pairs := by simp [State.completePair_eq]
@[simp] theorem State.completePair_cnt_ooc : (s.completePair v).cnt_ooc
    = if (demod s.i_reg v).2 then s.cnt_ooc else satValue s.params.cntW s.cnt_ooc := by simp [State.completePair_eq]
@[simp] theorem State.completePair_cnt_bytes : (s.completePair v).cnt_bytes
    = if 4 ≤ s.bit_cnt then satValue s.params.cntW s.cnt_bytes else s.cnt_bytes := by
  rw [State.completePair_eq, State.shiftSymbol_cnt_bytes, State.recordPair_bit_cnt, State.dropI_bit_cnt,
    State.countSample_bit_cnt]
  simp

/-- OOC and CNT_SAT are all of STATUS that the Q rail can set (10_state.md R35, R37). -/
@[simp] theorem State.completePair_status : (s.completePair v).status = { s.status with
    ooc := s.status.ooc || !(demod s.i_reg v).2
    cnt_sat := s.status.cnt_sat || satHit s.params.cntW s.cnt_samples || satHit s.params.cntW s.cnt_pairs
      || (!(demod s.i_reg v).2 && satHit s.params.cntW s.cnt_ooc)
      || (decide (4 ≤ s.bit_cnt) && satHit s.params.cntW s.cnt_bytes) } := by
  rw [State.completePair_eq, State.shiftSymbol_status, State.recordPair_bit_cnt, State.dropI_bit_cnt,
    State.countSample_bit_cnt]
  simp [State.satStatus]

theorem State.completePair_outq_length : (s.completePair v).outq.length ≤ s.outq.length + 1 := by
  simpa [State.completePair_eq] using (s.countSample.dropI.recordPair (demod s.i_reg v).2).shiftSymbol_outq_length
    (demod s.i_reg v).1 (!(demod s.i_reg v).2)

theorem State.completePair_reframer_clear (h : (s.completePair v).bit_cnt = 0) :
    (s.completePair v).sr = 0x00#8 ∧ (s.completePair v).byte_taint = false := by
  rw [State.completePair_eq] at h ⊢
  exact State.shiftSymbol_reframer_clear _ _ _ h

end

/-! ## The closing beats, field by field -/

section
variable (s : State)

@[simp] theorem State.seqError_status : s.seqError.status = { s.status with seq_err := true } := rfl

@[simp] theorem State.close_params : s.close.params = s.params := by rw [State.close_eq]
@[simp] theorem State.close_cnt_samples : s.close.cnt_samples = s.cnt_samples := by rw [State.close_eq]
@[simp] theorem State.close_cnt_pairs : s.close.cnt_pairs = s.cnt_pairs := by rw [State.close_eq]
@[simp] theorem State.close_cnt_ooc : s.close.cnt_ooc = s.cnt_ooc := by rw [State.close_eq]
@[simp] theorem State.close_cnt_bytes : s.close.cnt_bytes = s.cnt_bytes := by rw [State.close_eq]
@[simp] theorem State.close_status : s.close.status = { s.status with
    orphan := s.status.orphan || s.have_i
    residual := BitVec.ofNat 4 s.bit_cnt.val
    done := true } := by rw [State.close_eq]

end

/-! ## The state that a beat meets -/

/-- The state that the beat accepted at the coming edge meets: the edge is taken, and the pop that the host asks
for is done (44_stream_control.md R194). -/
def State.beforeBeat (s : State) : State := s.takeEdge.popIf s.portIn.out_ready

/-- Taking an edge and popping touch `outq` and the model's own fields alone. -/
theorem State.beforeBeat_eq (s : State) : s.beforeBeat = { s with
    inputs := s.inputs.tail
    edge := s.edge + 1
    outq := if s.portIn.out_ready then s.outq.tail else s.outq
    delivered := if s.portIn.out_ready then s.outq.head? else none } := by
  unfold State.beforeBeat State.popIf
  split <;> rfl

section
variable (s : State)

@[simp] theorem State.beforeBeat_params : s.beforeBeat.params = s.params := by rw [State.beforeBeat_eq]
@[simp] theorem State.beforeBeat_status : s.beforeBeat.status = s.status := by rw [State.beforeBeat_eq]
@[simp] theorem State.beforeBeat_have_i : s.beforeBeat.have_i = s.have_i := by rw [State.beforeBeat_eq]
@[simp] theorem State.beforeBeat_i_reg : s.beforeBeat.i_reg = s.i_reg := by rw [State.beforeBeat_eq]
@[simp] theorem State.beforeBeat_bit_cnt : s.beforeBeat.bit_cnt = s.bit_cnt := by rw [State.beforeBeat_eq]
@[simp] theorem State.beforeBeat_cnt_samples : s.beforeBeat.cnt_samples = s.cnt_samples := by rw [State.beforeBeat_eq]
@[simp] theorem State.beforeBeat_cnt_pairs : s.beforeBeat.cnt_pairs = s.cnt_pairs := by rw [State.beforeBeat_eq]
@[simp] theorem State.beforeBeat_cnt_ooc : s.beforeBeat.cnt_ooc = s.cnt_ooc := by rw [State.beforeBeat_eq]
@[simp] theorem State.beforeBeat_cnt_bytes : s.beforeBeat.cnt_bytes = s.cnt_bytes := by rw [State.beforeBeat_eq]
@[simp] theorem State.beforeBeat_inputs : s.beforeBeat.inputs = s.inputs.tail := by rw [State.beforeBeat_eq]

theorem State.beforeBeat_outq_length : s.beforeBeat.outq.length ≤ s.outq.length := by
  rw [State.beforeBeat_eq]
  dsimp only
  split <;> simp

end

theorem State.portIn_of_inputs {s : State} {p : PortIn} {rest : List PortIn} (h : s.inputs = p :: rest) :
    s.portIn = p := by
  simp [State.portIn, h]

end Sys2Proof.Machine
end

section
/-! The invariants of 10_state.md R51: they hold at reset, and every beat and every edge keeps them. -/

namespace Sys2Proof.Machine

/-! ## Consequences of the invariants -/

theorem satValue_eq_max {w c : Nat} {sat : Bool} (hsat : sat = true → c = 2 ^ w - 1)
    (h : (sat || satHit w c) = true) : satValue w c = 2 ^ w - 1 := by
  have hc : c = 2 ^ w - 1 := by
    rcases Bool.or_eq_true_iff.mp h with h | h
    · exact hsat h
    · exact (satHit_iff w c).mp h
  rw [satValue_of_max hc, hc]

/-- A legal counter holds at least 0 to 15 (00_scope.md R6). -/
theorem State.Inv.width {s : State} (h : s.Inv) : 16 ≤ 2 ^ s.params.cntW := by
  have hlegal := h.params_legal
  simp only [Params.wellFormed, Bool.and_eq_true, decide_eq_true_eq] at hlegal
  calc 16 = 2 ^ 4 := by norm_num
    _ ≤ 2 ^ s.params.cntW := Nat.pow_le_pow_right (by norm_num) hlegal.2

/-- While a frame is open the fields that only a close records are clear. -/
theorem State.Inv.open_flags {s : State} (h : s.Inv) (hd : s.status.done = false) :
    s.status.no_data = false ∧ s.status.src_err = false ∧ s.status.orphan = false ∧ s.status.residual = 0#4 := by
  have hflags := mt h.closed_flags (by simp [hd])
  simp only [not_or, Bool.not_eq_true, not_not] at hflags
  obtain ⟨hnd, hse, hor, -, hres⟩ := hflags
  exact ⟨hnd, hse, hor, hres⟩

/-- CNT_SAMPLES runs ahead of the other counters, so while CNT_SAT = 0 none of them is at its maximum. -/
theorem State.Inv.only_samples_at_max {s : State} (h : s.Inv) (hsat : s.status.cnt_sat = false) :
    satHit s.params.cntW s.cnt_pairs = false ∧ satHit s.params.cntW s.cnt_ooc = false
    ∧ satHit s.params.cntW s.cnt_bytes = false := by
  obtain ⟨hpairs, hbytes, -⟩ := h.counting hsat
  have hooc := h.ooc_among_pairs hsat
  have hfit := h.counters_fit.1
  have hwidth := h.width
  refine ⟨?_, ?_, ?_⟩ <;> (simp only [satHit, decide_eq_false_iff_not]; omega)

/-- The invariants read nothing of `inputs`, `delivered` and `edge`, and of `outq` the length alone. -/
theorem State.Inv.withQueue {s : State} (h : s.Inv) {q : List Entry} (hq : q.length ≤ s.params.outDepth)
    (ps : List PortIn) (e : Option Entry) (n : Nat) :
    State.Inv { s with outq := q, inputs := ps, delivered := e, edge := n } :=
  { h with queue_bounded := hq }

/-! ## Reset, START and the pop -/

theorem State.resetWith_inv {p : Params} (hp : p.wellFormed = true) : (State.resetWith p).Inv where
  params_legal := hp
  nibble_aligned := .inl rfl
  queue_bounded := Nat.zero_le _
  rail_clear _ := rfl
  reframer_clear _ := ⟨rfl, rfl⟩
  done_clear _ := ⟨rfl, rfl, rfl, rfl⟩
  closed_flags := by simp [State.resetWith, Status.reset]
  no_data_excludes_src_err := by simp [State.resetWith, Status.reset]
  residual_legal := .inl rfl
  ooc_counted := by simp [State.resetWith, Status.reset]
  counters_fit := by simp [State.resetWith]
  saturation := by simp [State.resetWith, Status.reset]
  ooc_among_pairs _ := Nat.le_refl 0
  samples_parity := by simp [State.resetWith, Status.reset]
  counting := by simp [State.resetWith, Status.reset]

/-- START as the reset values beside `outq` (10_state.md R50). -/
theorem State.frameClear_eq (s : State) : s.frameClear = { State.resetWith s.params with
    outq := s.outq, inputs := s.inputs, delivered := s.delivered, edge := s.edge } := rfl

theorem State.Inv.frameClear {s : State} (h : s.Inv) : s.frameClear.Inv :=
  (State.resetWith_inv h.params_legal).withQueue h.queue_bounded _ _ _

theorem State.Inv.resetEdge {s : State} (h : s.Inv) : s.resetEdge.Inv :=
  (State.resetWith_inv h.params_legal).withQueue (Nat.zero_le _) _ _ _

theorem State.Inv.beforeBeat {s : State} (h : s.Inv) : s.beforeBeat.Inv := by
  have hq := s.beforeBeat_outq_length.trans h.queue_bounded
  rw [State.beforeBeat_eq] at hq ⊢
  exact h.withQueue hq _ _ _

/-! ## SAMPLE -/

theorem State.Inv.holdSample {s : State} (h : s.Inv) (hd : s.status.done = false) (hi : s.have_i = false)
    (v : Byte) : (s.countSample.holdI v).Inv where
  params_legal := h.params_legal
  nibble_aligned := h.nibble_aligned
  queue_bounded := h.queue_bounded
  rail_clear := by simp
  reframer_clear := h.reframer_clear
  done_clear := by simp [hd]
  closed_flags := h.closed_flags
  no_data_excludes_src_err := h.no_data_excludes_src_err
  residual_legal := h.residual_legal
  ooc_counted := h.ooc_counted
  counters_fit := by
    obtain ⟨hsamples, hrest⟩ := h.counters_fit
    exact ⟨(satValue_bounds _ _).2 hsamples, hrest⟩
  saturation := satValue_eq_max h.saturation
  ooc_among_pairs hsat := h.ooc_among_pairs (Bool.or_eq_false_iff.mp hsat).1
  samples_parity hsat := by
    obtain ⟨hsat, hhit⟩ := Bool.or_eq_false_iff.mp hsat
    have hparity := h.samples_parity hsat
    obtain ⟨-, -, hor, -⟩ := h.open_flags hd
    simp only [hi, hor, Bool.false_eq_true, or_self, iff_false] at hparity
    simp [satValue_of_ne_max (of_decide_eq_false hhit)]
    omega
  counting hsat := by
    obtain ⟨hsat, hhit⟩ := Bool.or_eq_false_iff.mp hsat
    have hparity := h.samples_parity hsat
    obtain ⟨-, -, hor, -⟩ := h.open_flags hd
    simp only [hi, hor, Bool.false_eq_true, or_self, iff_false] at hparity
    obtain ⟨hpairs, hrest⟩ := h.counting hsat
    refine ⟨?_, hrest⟩
    simp [satValue_of_ne_max (of_decide_eq_false hhit)]
    omega

/-- From one nibble boundary a pair leads to the other (41_bit_assembler.md R124). -/
theorem nibble_aligned_add_four {c : Fin 8} (h : c = 0 ∨ c = 4) : c + 4 = 0 ∨ c + 4 = 4 := by
  revert c
  decide

theorem State.Inv.completePair_cnt_sat {s : State} (h : s.Inv) (v : Byte) :
    (s.completePair v).status.cnt_sat = (s.status.cnt_sat || satHit s.params.cntW s.cnt_samples) := by
  cases hsat : s.status.cnt_sat with
  | true => simp [hsat]
  | false =>
    obtain ⟨hpairs, hooc, hbytes⟩ := h.only_samples_at_max hsat
    simp [hsat, hpairs, hooc, hbytes]

/-- While nothing saturates, the sample that waits makes CNT_SAMPLES odd, and all counters of the Q rail count on. -/
theorem State.Inv.completePair_counts_on {s : State} (h : s.Inv) (hi : s.have_i = true) {v : Byte}
    (hsat' : (s.completePair v).status.cnt_sat = false) :
    s.status.cnt_sat = false ∧ s.cnt_samples % 2 = 1
    ∧ satValue s.params.cntW s.cnt_samples = s.cnt_samples + 1
    ∧ satValue s.params.cntW s.cnt_pairs = s.cnt_pairs + 1
    ∧ satValue s.params.cntW s.cnt_ooc = s.cnt_ooc + 1
    ∧ satValue s.params.cntW s.cnt_bytes = s.cnt_bytes + 1 := by
  rw [h.completePair_cnt_sat] at hsat'
  obtain ⟨hsat, hsamples⟩ := Bool.or_eq_false_iff.mp hsat'
  obtain ⟨hpairs, hooc, hbytes⟩ := h.only_samples_at_max hsat
  have hon {c : Nat} (hc : satHit s.params.cntW c = false) : satValue s.params.cntW c = c + 1 :=
    satValue_of_ne_max (of_decide_eq_false hc)
  exact ⟨hsat, (h.samples_parity hsat).mpr (.inl hi), hon hsamples, hon hpairs, hon hooc, hon hbytes⟩

/-- The stream position and the counters go on together (10_state.md R51.7). -/
theorem State.Inv.completePair_counting {s : State} (h : s.Inv) (hd : s.status.done = false)
    (hi : s.have_i = true) {v : Byte} (hsat' : (s.completePair v).status.cnt_sat = false) :
    (s.completePair v).cnt_pairs = (s.completePair v).cnt_samples / 2
    ∧ (s.completePair v).cnt_bytes = 4 * (s.completePair v).cnt_pairs / 8
    ∧ (s.completePair v).key_idx.val = 4 * (s.completePair v).cnt_pairs % 13
    ∧ (s.completePair v).bit_cnt.val = 4 * (s.completePair v).cnt_pairs % 8 := by
  obtain ⟨hsat, hodd, hsamples', hpairs', -, hbytes'⟩ := h.completePair_counts_on hi hsat'
  obtain ⟨hpairs, hbytes, hkey, hcount, -⟩ := h.counting hsat
  have hcount := hcount hd
  have hkey4 : (s.key_idx + 4).val = (s.key_idx.val + 4) % 13 := Fin.val_add _ _
  have hcount4 : (s.bit_cnt + 4).val = (s.bit_cnt.val + 4) % 8 := Fin.val_add _ _
  have hle : 4 ≤ s.bit_cnt ↔ 4 ≤ s.bit_cnt.val := Fin.le_def
  simp only [State.completePair_cnt_pairs, State.completePair_cnt_samples, State.completePair_cnt_bytes,
    State.completePair_key_idx, State.completePair_bit_cnt, hsamples', hpairs', hbytes', hkey4, hcount4, hle]
  refine ⟨by omega, ?_, by omega, by omega⟩
  split <;> omega

theorem State.Inv.completePair {s : State} (h : s.Inv) (hd : s.status.done = false) (hi : s.have_i = true)
    (hroom : s.outq.length < s.params.outDepth) (v : Byte) : (s.completePair v).Inv where
  params_legal := by simpa using h.params_legal
  nibble_aligned := by simpa using nibble_aligned_add_four h.nibble_aligned
  queue_bounded := by simpa using (s.completePair_outq_length v).trans hroom
  rail_clear := by simp
  reframer_clear := s.completePair_reframer_clear v
  done_clear := by simp [hd]
  closed_flags := by simpa using h.closed_flags
  no_data_excludes_src_err := by simpa using h.no_data_excludes_src_err
  residual_legal := by simpa using h.residual_legal
  ooc_counted := by
    cases hok : (demod s.i_reg v).2 with
    | true => simpa [hok] using h.ooc_counted
    | false => simp [hok, satValue_pos (le_trans (by norm_num) h.width)]
  counters_fit := by
    obtain ⟨hsamples, hpairs, hooc, hbytes⟩ := h.counters_fit
    simp only [State.completePair_params, State.completePair_cnt_samples, State.completePair_cnt_pairs,
      State.completePair_cnt_ooc, State.completePair_cnt_bytes]
    exact ⟨(CounterStep.increment _ _).fits hsamples, (CounterStep.increment _ _).fits hpairs,
      (CounterStep.increment_unless _ _ _).fits hooc, (CounterStep.increment_if _ _ _).fits hbytes⟩
  saturation := by
    rw [h.completePair_cnt_sat]
    simpa using satValue_eq_max h.saturation
  ooc_among_pairs hsat' := by
    obtain ⟨hsat, -, -, hpairs', hooc', -⟩ := h.completePair_counts_on hi hsat'
    have := h.ooc_among_pairs hsat
    simp only [State.completePair_cnt_pairs, State.completePair_cnt_ooc, hpairs', hooc']
    split <;> omega
  samples_parity hsat' := by
    obtain ⟨-, hodd, hsamples', -⟩ := h.completePair_counts_on hi hsat'
    simp [hsamples', (h.open_flags hd).2.2.1]
    omega
  counting hsat' := by
    obtain ⟨hpairs, hbytes, hkey, hcount⟩ := h.completePair_counting hd hi hsat'
    exact ⟨hpairs, hbytes, hkey, fun _ => hcount, by simp [hd]⟩

/-! ## The close and the beats after it -/

/-- The close of an open frame, with NO_DATA or SRC_ERR or neither recorded (44_stream_control.md R184 to R186). -/
theorem State.Inv.close {s : State} (h : s.Inv) (hd : s.status.done = false) {noData srcErr : Bool}
    (hboth : ¬ (noData = true ∧ srcErr = true)) :
    (s.setStatus { s.status with no_data := noData, src_err := srcErr }).close.Inv := by
  obtain ⟨-, -, hor, -⟩ := h.open_flags hd
  rw [State.close_eq]
  exact {
    params_legal := h.params_legal
    nibble_aligned := .inl rfl
    queue_bounded := h.queue_bounded
    rail_clear := by
      have := h.rail_clear
      cases hi : s.have_i <;> simp_all
    reframer_clear := by simp
    done_clear := by simp
    closed_flags := by simp
    no_data_excludes_src_err := hboth
    residual_legal := by
      rcases h.nibble_aligned with hc | hc <;> simp [hc]
    ooc_counted := h.ooc_counted
    counters_fit := h.counters_fit
    saturation := h.saturation
    ooc_among_pairs := h.ooc_among_pairs
    samples_parity := by
      intro hsat
      simpa [hor] using h.samples_parity hsat
    counting := by
      intro hsat
      obtain ⟨hpairs, hbytes, hkey, hcount, -⟩ := h.counting hsat
      have hlt : s.bit_cnt.val < 16 := by omega
      simpa [Nat.mod_eq_of_lt hlt] using ⟨hpairs, hbytes, hkey, hcount hd⟩ }

theorem State.Inv.endRun {s : State} (h : s.Inv) (hd : s.status.done = false) : s.endRun.Inv :=
  h.close hd (noData := decide (s.cnt_samples = 0)) (srcErr := s.status.src_err)
    (by simp [(h.open_flags hd).2.1])

theorem State.Inv.srcErrRun {s : State} (h : s.Inv) (hd : s.status.done = false) : s.srcErrRun.Inv :=
  h.close hd (noData := s.status.no_data) (srcErr := true) (by simp [(h.open_flags hd).1])

theorem State.Inv.seqError {s : State} (h : s.Inv) (hd : s.status.done = true) : s.seqError.Inv :=
  { h with closed_flags := fun _ => hd }

/-! ## Every beat and every edge -/

theorem State.Inv.exec {s t : State} {i : Instr} (h : s.Inv) (hroom : s.outq.length < s.params.outDepth)
    (hx : exec i s = .next t) : t.Inv := by
  rcases exec_cases hx with ⟨_, -, rfl⟩ | ⟨hd, -, rfl⟩ | ⟨hd, v, -, hi, rfl⟩ | ⟨hd, v, -, hi, rfl⟩
    | ⟨hd, _, -, rfl⟩ | ⟨hd, _, -, rfl⟩
  · exact h.frameClear
  · exact h.seqError hd
  · exact h.holdSample hd hi v
  · exact h.completePair hd hi hroom v
  · exact h.endRun hd
  · exact h.srcErrRun hd

theorem State.Inv.takeEdge {s : State} (h : s.Inv) : s.takeEdge.Inv :=
  h.withQueue h.queue_bounded _ _ _

/-- Settles O43: the edge resets, runs a beat while there is room in the queue, or only pops. -/
theorem stepKeepsTheInvariants : Obligations.StepKeepsTheInvariants := by
  intro s t h hstep
  rcases step_cases hstep with ⟨-, -, rfl⟩ | ⟨-, i, -, hroom, -, hx⟩ | ⟨-, -, rfl⟩
  · exact h.takeEdge.resetEdge
  · refine h.beforeBeat.exec ?_ hx
    simpa using s.beforeBeat_outq_length.trans_lt hroom
  · exact h.beforeBeat

/-- Settles O42: each invariant read off the reset values. -/
theorem resetMeetsTheInvariants : Obligations.ResetMeetsTheInvariants :=
  fun _ hp => State.resetWith_inv hp

end Sys2Proof.Machine
end

section
/-! STATUS over one edge: which beat sets a field, in which circumstances, and what stays (10_state.md R30 to R38). -/

namespace Sys2Proof.Machine

/-! ## STATUS after a beat -/

/-- STATUS after a SAMPLE while DONE = 0, on either rail (44_stream_control.md R181, R182). -/
def State.sampleStatus (s : State) (v : Byte) : Status :=
  { s.status with
    ooc := s.status.ooc || (s.have_i && !(demod s.i_reg v).2)
    cnt_sat := s.status.cnt_sat || satHit s.params.cntW s.cnt_samples
      || (s.have_i && (satHit s.params.cntW s.cnt_pairs
        || (!(demod s.i_reg v).2 && satHit s.params.cntW s.cnt_ooc)
        || (decide (4 ≤ s.bit_cnt) && satHit s.params.cntW s.cnt_bytes))) }

theorem State.holdSample_status {s : State} (hi : s.have_i = false) (v : Byte) :
    (s.countSample.holdI v).status = s.sampleStatus v := by
  simp [State.sampleStatus, State.satStatus, hi]

theorem State.completePair_status_eq_sampleStatus {s : State} (hi : s.have_i = true) (v : Byte) :
    (s.completePair v).status = s.sampleStatus v := by
  simp [State.sampleStatus, hi, Bool.or_assoc]

/-- STATUS after END while DONE = 0 (44_stream_control.md R184, R185). -/
@[simp] theorem State.endRun_status (s : State) : s.endRun.status = { s.status with
    no_data := decide (s.cnt_samples = 0)
    orphan := s.status.orphan || s.have_i
    residual := BitVec.ofNat 4 s.bit_cnt.val
    done := true } := by simp [State.endRun]

/-- STATUS after SRCERR while DONE = 0 (44_stream_control.md R184, R186). -/
@[simp] theorem State.srcErrRun_status (s : State) : s.srcErrRun.status = { s.status with
    src_err := true
    orphan := s.status.orphan || s.have_i
    residual := BitVec.ofNat 4 s.bit_cnt.val
    done := true } := by simp [State.srcErrRun]

/-- Everything a beat can do to STATUS: START, a beat after the close, SAMPLE, END, SRCERR. -/
theorem exec_status_cases {i : Instr} {s t : State} (h : exec i s = .next t) :
    (∃ d, i = .start d ∧ t.status = Status.reset)
    ∨ (s.status.done = true ∧ (∃ d, i = .sample d ∨ i = .endBeat d ∨ i = .srcErr d)
        ∧ t.status = s.seqError.status)
    ∨ (s.status.done = false ∧ ∃ v, i = .sample v ∧ t.status = s.sampleStatus v)
    ∨ (s.status.done = false ∧ ∃ d, i = .endBeat d ∧ t.status = s.endRun.status)
    ∨ (s.status.done = false ∧ ∃ d, i = .srcErr d ∧ t.status = s.srcErrRun.status) := by
  rcases exec_cases h with ⟨d, rfl, rfl⟩ | ⟨hd, hi, rfl⟩ | ⟨hd, v, rfl, hi, rfl⟩ | ⟨hd, v, rfl, hi, rfl⟩
    | ⟨hd, d, rfl, rfl⟩ | ⟨hd, d, rfl, rfl⟩
  · exact .inl ⟨d, rfl, rfl⟩
  · refine .inr (.inl ⟨hd, ?_, rfl⟩)
    cases i with
    | sample d => exact ⟨d, .inl rfl⟩
    | endBeat d => exact ⟨d, .inr (.inl rfl)⟩
    | srcErr d => exact ⟨d, .inr (.inr rfl)⟩
    | start d => exact absurd rfl (hi d)
  · exact .inr (.inr (.inl ⟨hd, v, rfl, State.holdSample_status hi v⟩))
  · exact .inr (.inr (.inl ⟨hd, v, rfl, State.completePair_status_eq_sampleStatus hi v⟩))
  · exact .inr (.inr (.inr (.inl ⟨hd, d, rfl, rfl⟩)))
  · exact .inr (.inr (.inr (.inr ⟨hd, d, rfl, rfl⟩)))

/-! ## What an edge can do to STATUS -/

/-- Everything an edge can do to STATUS: a reset, an accepted beat, or nothing. -/
theorem step_status_cases {s t : State} (h : step s = .next t) :
    (s.portIn.rst = true ∧ t.status = Status.reset)
    ∨ (∃ i, s.acceptedNow = some i ∧ exec i s.beforeBeat = .next t)
    ∨ t.status = s.status := by
  rcases step_cases h with ⟨hr, -, rfl⟩ | ⟨-, i, ha, -, -, hx⟩ | ⟨-, -, rfl⟩
  · exact .inl ⟨hr, rfl⟩
  · exact .inr (.inl ⟨i, ha, hx⟩)
  · exact .inr (.inr s.beforeBeat_status)

/-- A field of STATUS that is 0 in the reset value becomes 1 only by an accepted beat. -/
theorem step_sets_flag {s t : State} {flag : Status → Bool} (hreset : flag Status.reset = false)
    (h : step s = .next t) (h0 : flag s.status = false) (h1 : flag t.status = true) :
    ∃ i, s.acceptedNow = some i ∧ exec i s.beforeBeat = .next t := by
  rcases step_status_cases h with ⟨-, hst⟩ | hbeat | hst
  · simp [hst, hreset] at h1
  · exact hbeat
  · simp [hst, h0] at h1

/-! ## Each field has its own beats -/

section
variable {i : Instr} {s t : State}

theorem exec_sets_done (h : exec i s = .next t) (h0 : s.status.done = false) (h1 : t.status.done = true) :
    ∃ d, i = .endBeat d ∨ i = .srcErr d := by
  rcases exec_status_cases h with ⟨_, -, hst⟩ | ⟨hd, -, -⟩ | ⟨-, v, -, hst⟩ | ⟨-, d, hi, -⟩ | ⟨-, d, hi, -⟩
  · simp [hst, Status.reset] at h1
  · simp [h0] at hd
  · simp [hst, State.sampleStatus, h0] at h1
  · exact ⟨d, .inl hi⟩
  · exact ⟨d, .inr hi⟩

theorem exec_sets_no_data (h : exec i s = .next t) (h0 : s.status.no_data = false)
    (h1 : t.status.no_data = true) : s.status.done = false ∧ s.cnt_samples = 0 ∧ ∃ d, i = .endBeat d := by
  rcases exec_status_cases h with ⟨_, -, hst⟩ | ⟨-, -, hst⟩ | ⟨-, v, -, hst⟩ | ⟨hd, d, hi, hst⟩ | ⟨-, _, -, hst⟩
  · simp [hst, Status.reset] at h1
  · simp [hst, h0] at h1
  · simp [hst, State.sampleStatus, h0] at h1
  · exact ⟨hd, by simpa [hst] using h1, d, hi⟩
  · simp [hst, h0] at h1

theorem exec_sets_src_err (h : exec i s = .next t) (h0 : s.status.src_err = false)
    (h1 : t.status.src_err = true) : s.status.done = false ∧ ∃ d, i = .srcErr d := by
  rcases exec_status_cases h with ⟨_, -, hst⟩ | ⟨-, -, hst⟩ | ⟨-, v, -, hst⟩ | ⟨-, _, -, hst⟩ | ⟨hd, d, hi, -⟩
  · simp [hst, Status.reset] at h1
  · simp [hst, h0] at h1
  · simp [hst, State.sampleStatus, h0] at h1
  · simp [hst, h0] at h1
  · exact ⟨hd, d, hi⟩

theorem exec_sets_orphan (h : exec i s = .next t) (h0 : s.status.orphan = false) (h1 : t.status.orphan = true) :
    s.status.done = false ∧ s.have_i = true ∧ ∃ d, i = .endBeat d ∨ i = .srcErr d := by
  rcases exec_status_cases h with ⟨_, -, hst⟩ | ⟨-, -, hst⟩ | ⟨-, v, -, hst⟩ | ⟨hd, d, hi, hst⟩ | ⟨hd, d, hi, hst⟩
  · simp [hst, Status.reset] at h1
  · simp [hst, h0] at h1
  · simp [hst, State.sampleStatus, h0] at h1
  · exact ⟨hd, by simpa [hst, h0] using h1, d, .inl hi⟩
  · exact ⟨hd, by simpa [hst, h0] using h1, d, .inr hi⟩

theorem exec_sets_ooc (h : exec i s = .next t) (h0 : s.status.ooc = false) (h1 : t.status.ooc = true) :
    s.status.done = false ∧ s.have_i = true ∧ ∃ v, i = .sample v ∧ (demod s.i_reg v).2 = false := by
  rcases exec_status_cases h with ⟨_, -, hst⟩ | ⟨-, -, hst⟩ | ⟨hd, v, hi, hst⟩ | ⟨-, _, -, hst⟩ | ⟨-, _, -, hst⟩
  · simp [hst, Status.reset] at h1
  · simp [hst, h0] at h1
  · have hpair : s.have_i = true ∧ (demod s.i_reg v).2 = false := by
      simpa [hst, State.sampleStatus, h0] using h1
    exact ⟨hd, hpair.1, v, hi, hpair.2⟩
  · simp [hst, h0] at h1
  · simp [hst, h0] at h1

theorem exec_sets_seq_err (h : exec i s = .next t) (h0 : s.status.seq_err = false)
    (h1 : t.status.seq_err = true) :
    s.status.done = true ∧ ∃ d, i = .sample d ∨ i = .endBeat d ∨ i = .srcErr d := by
  rcases exec_status_cases h with ⟨_, -, hst⟩ | ⟨hd, hi, -⟩ | ⟨-, v, -, hst⟩ | ⟨-, _, -, hst⟩ | ⟨-, _, -, hst⟩
  · simp [hst, Status.reset] at h1
  · exact ⟨hd, hi⟩
  · simp [hst, State.sampleStatus, h0] at h1
  · simp [hst, h0] at h1
  · simp [hst, h0] at h1

theorem exec_sets_cnt_sat (h : exec i s = .next t) (h0 : s.status.cnt_sat = false)
    (h1 : t.status.cnt_sat = true) :
    s.status.done = false ∧ ∃ v, i = .sample v
      ∧ (s.cnt_samples = 2 ^ s.params.cntW - 1
        ∨ s.have_i = true ∧ (s.cnt_pairs = 2 ^ s.params.cntW - 1
          ∨ (demod s.i_reg v).2 = false ∧ s.cnt_ooc = 2 ^ s.params.cntW - 1
          ∨ 4 ≤ s.bit_cnt ∧ s.cnt_bytes = 2 ^ s.params.cntW - 1)) := by
  rcases exec_status_cases h with ⟨_, -, hst⟩ | ⟨-, -, hst⟩ | ⟨hd, v, hi, hst⟩ | ⟨-, _, -, hst⟩ | ⟨-, _, -, hst⟩
  · simp [hst, Status.reset] at h1
  · simp [hst, h0] at h1
  · exact ⟨hd, v, hi, by simpa [hst, State.sampleStatus, h0, satHit_iff, or_assoc] using h1⟩
  · simp [hst, h0] at h1
  · simp [hst, h0] at h1

theorem exec_changes_residual (h : exec i s = .next t) (hne : t.status.residual ≠ s.status.residual) :
    (t.status.residual = 0#4 ∧ ∃ d, i = .start d)
    ∨ s.status.done = false ∧ t.status.residual = BitVec.ofNat 4 s.bit_cnt.val
      ∧ ∃ d, i = .endBeat d ∨ i = .srcErr d := by
  rcases exec_status_cases h with ⟨d, hi, hst⟩ | ⟨-, -, hst⟩ | ⟨-, v, -, hst⟩ | ⟨hd, d, hi, hst⟩ | ⟨hd, d, hi, hst⟩
  · exact .inl ⟨by simp [hst, Status.reset], d, hi⟩
  · simp [hst] at hne
  · simp [hst, State.sampleStatus] at hne
  · exact .inr ⟨hd, by simp [hst], d, .inl hi⟩
  · exact .inr ⟨hd, by simp [hst], d, .inr hi⟩

end

theorem step_changes_residual {s t : State} (h : step s = .next t)
    (hne : t.status.residual ≠ s.status.residual) :
    t.status.residual = 0#4 ∧ (s.portIn.rst = true ∨ ∃ d, s.acceptedNow = some (.start d))
    ∨ s.status.done = false ∧ t.status.residual = BitVec.ofNat 4 s.bit_cnt.val
      ∧ ∃ d, s.acceptedNow = some (.endBeat d) ∨ s.acceptedNow = some (.srcErr d) := by
  rcases step_status_cases h with ⟨hr, hst⟩ | ⟨i, ha, hx⟩ | hst
  · exact .inl ⟨by simp [hst, Status.reset], .inl hr⟩
  · rcases exec_changes_residual hx (by simpa using hne) with ⟨hres, d, rfl⟩ | ⟨hd, hres, d, hi⟩
    · exact .inl ⟨hres, .inr ⟨d, ha⟩⟩
    · exact .inr ⟨by simpa using hd, by simpa using hres, d, by simpa [ha] using hi⟩
  · exact absurd (by rw [hst]) hne

/-- Settles O45: a field that is set is set by an accepted beat, and each beat has its own fields. -/
theorem eachStatusFieldHasItsOwnBeats : Obligations.EachStatusFieldHasItsOwnBeats := by
  intro s t h
  refine ⟨fun h0 h1 => ?_, fun h0 h1 => ?_, fun h0 h1 => ?_, fun h0 h1 => ?_, fun h0 h1 => ?_, fun h0 h1 => ?_,
    fun h0 h1 => ?_, step_changes_residual h⟩
  · obtain ⟨i, ha, hx⟩ := step_sets_flag (flag := Status.done) rfl h h0 h1
    simpa [ha] using exec_sets_done hx (by simpa using h0) h1
  · obtain ⟨i, ha, hx⟩ := step_sets_flag (flag := Status.no_data) rfl h h0 h1
    simpa [ha] using exec_sets_no_data hx (by simpa using h0) h1
  · obtain ⟨i, ha, hx⟩ := step_sets_flag (flag := Status.src_err) rfl h h0 h1
    simpa [ha] using exec_sets_src_err hx (by simpa using h0) h1
  · obtain ⟨i, ha, hx⟩ := step_sets_flag (flag := Status.orphan) rfl h h0 h1
    simpa [ha] using exec_sets_orphan hx (by simpa using h0) h1
  · obtain ⟨i, ha, hx⟩ := step_sets_flag (flag := Status.ooc) rfl h h0 h1
    simpa [ha] using exec_sets_ooc hx (by simpa using h0) h1
  · obtain ⟨i, ha, hx⟩ := step_sets_flag (flag := Status.seq_err) rfl h h0 h1
    simpa [ha] using exec_sets_seq_err hx (by simpa using h0) h1
  · obtain ⟨i, ha, hx⟩ := step_sets_flag (flag := Status.cnt_sat) rfl h h0 h1
    simpa [ha] using exec_sets_cnt_sat hx (by simpa using h0) h1

/-! ## What stays until START or reset -/

/-- The sticky fields of STATUS that are set in the first are set in the second (10_state.md R30). -/
def Status.StaysIn (st st' : Status) : Prop :=
  (st.done = true → st'.done = true) ∧ (st.no_data = true → st'.no_data = true)
  ∧ (st.src_err = true → st'.src_err = true) ∧ (st.orphan = true → st'.orphan = true)
  ∧ (st.ooc = true → st'.ooc = true) ∧ (st.seq_err = true → st'.seq_err = true)
  ∧ (st.cnt_sat = true → st'.cnt_sat = true)

theorem Status.StaysIn.refl (st : Status) : st.StaysIn st := by simp [Status.StaysIn]

/-- A beat other than START clears no sticky field. END writes NO_DATA, but only while DONE = 0, and then NO_DATA
is 0. -/
theorem exec_keeps_sticky {i : Instr} {s t : State} (hinv : s.Inv) (h : exec i s = .next t)
    (hstart : ∀ d, i ≠ .start d) : s.status.StaysIn t.status := by
  rcases exec_status_cases h with ⟨d, hi, -⟩ | ⟨-, -, hst⟩ | ⟨-, v, -, hst⟩ | ⟨hd, _, -, hst⟩ | ⟨-, _, -, hst⟩
  · exact absurd hi (hstart d)
  · simp [Status.StaysIn, hst]
  · simp +contextual [Status.StaysIn, hst, State.sampleStatus]
  · simp +contextual [Status.StaysIn, hst, (hinv.open_flags hd).1]
  · simp +contextual [Status.StaysIn, hst]

/-- Settles O44: a reset is excluded, a beat keeps what is set, and an edge with no beat keeps all of STATUS. -/
theorem statusFieldsAreSticky : Obligations.StatusFieldsAreSticky := by
  intro s t hinv h hr hstart
  rcases step_status_cases h with ⟨hr', -⟩ | ⟨i, ha, hx⟩ | hst
  · simp [hr] at hr'
  · have hi : ∀ d, i ≠ .start d := fun d hd => hstart d (by rw [ha, hd])
    rw [← s.beforeBeat_status]
    exact exec_keeps_sticky hinv.beforeBeat hx hi
  · rw [hst]
    exact Status.StaysIn.refl _

theorem exec_clears_done {i : Instr} {s t : State} (h : exec i s = .next t) (h1 : s.status.done = true)
    (h0 : t.status.done = false) : ∃ d, i = .start d := by
  rcases exec_status_cases h with ⟨d, hi, -⟩ | ⟨-, -, hst⟩ | ⟨hd, -⟩ | ⟨hd, -⟩ | ⟨hd, -⟩
  · exact ⟨d, hi⟩
  · simp [hst, h1] at h0
  all_goals simp [h1] at hd

/-- Settles O46: of all beats START alone clears DONE. -/
theorem onlyStartOrResetReopensAFrame : Obligations.OnlyStartOrResetReopensAFrame := by
  intro s t h h1 h0
  rcases step_status_cases h with ⟨hr, -⟩ | ⟨i, ha, hx⟩ | hst
  · exact .inl hr
  · obtain ⟨d, rfl⟩ := exec_clears_done hx (by simpa using h1) h0
    exact .inr ⟨d, ha⟩
  · simp [hst, h1] at h0

end Sys2Proof.Machine
end

section
/-! The counters over one edge (10_state.md R40). -/

namespace Sys2Proof.Machine

/-- What a beat other than START, or an edge with no beat, does to the four counters. -/
def State.CountsOnTo (s t : State) : Prop :=
  CounterStep s.params.cntW s.cnt_samples t.cnt_samples ∧ CounterStep s.params.cntW s.cnt_pairs t.cnt_pairs
  ∧ CounterStep s.params.cntW s.cnt_ooc t.cnt_ooc ∧ CounterStep s.params.cntW s.cnt_bytes t.cnt_bytes
  ∧ t.params = s.params

theorem State.CountsOnTo.of_same {s t : State} (hsamples : t.cnt_samples = s.cnt_samples)
    (hpairs : t.cnt_pairs = s.cnt_pairs) (hooc : t.cnt_ooc = s.cnt_ooc) (hbytes : t.cnt_bytes = s.cnt_bytes)
    (hparams : t.params = s.params) : s.CountsOnTo t :=
  ⟨.inl hsamples, .inl hpairs, .inl hooc, .inl hbytes, hparams⟩

/-- The Q rail counts a sample and a pair, and an out-of-constellation pair and a byte as the case may be. -/
theorem State.countsOnTo_completePair (s : State) (v : Byte) : s.CountsOnTo (s.completePair v) := by
  unfold State.CountsOnTo
  simp only [State.completePair_params, State.completePair_cnt_samples, State.completePair_cnt_pairs,
    State.completePair_cnt_ooc, State.completePair_cnt_bytes]
  exact ⟨.increment _ _, .increment _ _, .increment_unless _ _ _, .increment_if _ _ _, trivial⟩

theorem exec_countsOnTo {i : Instr} {s t : State} (h : exec i s = .next t) (hstart : ∀ d, i ≠ .start d) :
    s.CountsOnTo t := by
  rcases exec_cases h with ⟨d, hi, -⟩ | ⟨-, -, rfl⟩ | ⟨-, v, -, -, rfl⟩ | ⟨-, v, -, -, rfl⟩ | ⟨-, _, -, rfl⟩
    | ⟨-, _, -, rfl⟩
  · exact absurd hi (hstart d)
  · exact .of_same rfl rfl rfl rfl rfl
  · exact ⟨.increment _ _, .same _ _, .same _ _, .same _ _, rfl⟩
  · exact s.countsOnTo_completePair v
  · apply State.CountsOnTo.of_same <;> simp [State.endRun]
  · apply State.CountsOnTo.of_same <;> simp [State.srcErrRun]

theorem step_countsOnTo {s t : State} (h : step s = .next t) (hr : s.portIn.rst = false)
    (hstart : ∀ d, s.acceptedNow ≠ some (.start d)) : s.CountsOnTo t := by
  rcases step_cases h with ⟨hr', -, -⟩ | ⟨-, i, ha, -, -, hx⟩ | ⟨-, -, rfl⟩
  · simp [hr] at hr'
  · have hi : ∀ d, i ≠ .start d := fun d hd => hstart d (by rw [ha, hd])
    have hbeat : s.beforeBeat.CountsOnTo t := exec_countsOnTo hx hi
    simpa [State.CountsOnTo] using hbeat
  · change s.CountsOnTo s.beforeBeat
    apply State.CountsOnTo.of_same <;> simp

/-- Settles O47: each counter is left or incremented once, and an increment neither falls nor overflows. -/
theorem countersNeverFall : Obligations.CountersNeverFall := by
  intro s t h hr hstart
  obtain ⟨hsamples, hpairs, hooc, hbytes, hparams⟩ := step_countsOnTo h hr hstart
  rw [hparams]
  exact ⟨⟨hsamples.le, hpairs.le, hooc.le, hbytes.le⟩, hsamples.fits, hpairs.fits, hooc.fits, hbytes.fits⟩

end Sys2Proof.Machine
end

section
/-! The handshake of the input port (10_state.md R23, R24). -/

namespace Sys2Proof.Machine

/-! ## A full queue -/

theorem State.inReady_eq_false_iff (s : State) : s.inReady = false ↔ s.params.outDepth ≤ s.outq.length := by
  simp [State.inReady]

/-- An edge without reset that finds the queue full only pops. -/
theorem step_of_full {s : State} (hr : s.portIn.rst = false) (hfull : s.inReady = false) :
    step s = .next s.beforeBeat := by
  have hnot : s.takeEdge.accepts s.portIn = false := by
    simp [State.accepts, show s.takeEdge.inReady = false from hfull]
  simp [step, State.edgeStep, hr, hnot, State.beforeBeat]

/-- Settles O8: readiness is judged at the start of the edge, so a full queue only pops. -/
theorem fullQueueAcceptsNoBeat : Obligations.FullQueueAcceptsNoBeat := by
  intro s p rest hin hr hfull
  have hp := State.portIn_of_inputs hin
  have hready := s.inReady_eq_false_iff.mpr hfull
  refine ⟨hready, ?_⟩
  rw [step_of_full (by rw [hp]; exact hr) hready, State.beforeBeat_eq, hp, hin]
  rfl

/-! ## A host that holds its word -/

/-- The coming edge is no reset edge, and none of the `k` edges after it is. -/
theorem State.resetWithin_succ {s : State} {k : Nat} (h : s.resetWithin (k + 1) = false) :
    s.portIn.rst = false ∧ s.beforeBeat.resetWithin k = false := by
  unfold State.resetWithin at *
  rw [State.beforeBeat_inputs]
  cases hin : s.inputs with
  | nil => simp [State.portIn, hin, PortIn.idle]
  | cons p rest => simpa [State.portIn, hin] using h

/-- A word that waits at a full queue is offered again at the next edge by a host that keeps its duty. -/
theorem State.hostHolds_succ_of_full {s : State} {k : Nat} (h : s.hostHolds (k + 1) = true)
    (hr : s.portIn.rst = false) (hv : s.portIn.in_valid = true) (hfull : s.inReady = false) :
    s.beforeBeat.portIn.in_valid = true ∧ s.beforeBeat.portIn.in_word = s.portIn.in_word
    ∧ s.beforeBeat.hostHolds k = true := by
  simpa [State.hostHolds, step_of_full hr hfull, hr, hv, hfull, and_assoc] using h

theorem acceptedNow_of_room {s : State} (hr : s.portIn.rst = false) (hv : s.portIn.in_valid = true)
    (hroom : s.inReady = true) : s.acceptedNow = some (decode s.portIn.in_word) := by
  simp [State.acceptedNow, State.accepts, hr, hv, hroom]

theorem acceptedNow_of_full {s : State} (hfull : s.inReady = false) : s.acceptedNow = none := by
  simp [State.acceptedNow, State.accepts, hfull]

/-- Settles O17, by induction on the number of edges: a full queue hands the same offer on to the next edge. -/
theorem heldWordIsTheBeatAccepted : Obligations.HeldWordIsTheBeatAccepted := by
  intro k
  induction k with
  | zero => exact fun s _ _ _ => .inl rfl
  | succ k ih =>
    intro s hhold hreset hv
    obtain ⟨hr, hreset'⟩ := State.resetWithin_succ hreset
    cases hready : s.inReady with
    | true => exact .inr ⟨_, by rw [acceptedBeats, acceptedNow_of_room hr hv hready]; rfl⟩
    | false =>
      obtain ⟨hv', hword, hhold'⟩ := State.hostHolds_succ_of_full hhold hr hv hready
      have hlater : acceptedBeats (k + 1) s = acceptedBeats k s.beforeBeat := by
        simp [acceptedBeats, acceptedNow_of_full hready, step_of_full hr hready]
      rw [hlater, ← hword]
      exact ih s.beforeBeat hhold' hreset' hv'

end Sys2Proof.Machine
end

section
/-! Reset values, the output ports, the saturating increment and START (10_state.md R22 to R25, R30, R39, R40,
R49, R50). -/

namespace Sys2Proof.Machine

theorem Status.word_reset : Status.reset.word = 0x0000#16 := by decide

/-- Settles O18. Only `in_ready` needs a legal build: a queue of no places would never be ready. -/
theorem resetValues : Obligations.ResetValues := by
  refine ⟨rfl, fun p hp => ?_⟩
  have hdepth : 0 < p.outDepth := by
    simp only [Params.wellFormed, Bool.and_eq_true, decide_eq_true_eq] at hp
    exact hp.1
  refine ⟨Status.word_reset, rfl, rfl, rfl, rfl, rfl, rfl, rfl, rfl, rfl, rfl, rfl, rfl, ?_, rfl, rfl, rfl⟩
  exact decide_eq_true hdepth

/-! ## The STATUS word -/

theorem getLsbD_append_ofBool {n : Nat} (x : BitVec n) (b : Bool) (i : Nat) :
    (x ++ BitVec.ofBool b).getLsbD i = if i = 0 then b else x.getLsbD (i - 1) := by
  rw [BitVec.getLsbD_append]
  cases i <;> simp

/-- Bit `i` of the STATUS word (10_state.md R30): a flag below bit 7, and RESIDUAL from bit 8 on, above whose four
bits there is nothing. -/
theorem Status.getLsbD_word (st : Status) (i : Nat) : st.word.getLsbD i =
    match i with
    | 0 => st.done
    | 1 => st.no_data
    | 2 => st.src_err
    | 3 => st.orphan
    | 4 => st.ooc
    | 5 => st.seq_err
    | 6 => st.cnt_sat
    | 7 => false
    | j + 8 => st.residual.getLsbD j := by
  unfold Status.word
  iterate 7 rw [getLsbD_append_ofBool]
  iterate 2 rw [BitVec.getLsbD_append]
  rcases i with _ | _ | _ | _ | _ | _ | _ | _ | j <;> simp
  exact fun hj => BitVec.lt_of_getLsbD hj

/-- Settles O19, bit by bit. -/
theorem statusWordLayout : Obligations.StatusWordLayout := by
  intro s
  refine ⟨s.status.getLsbD_word 0, s.status.getLsbD_word 1, s.status.getLsbD_word 2, s.status.getLsbD_word 3,
    s.status.getLsbD_word 4, s.status.getLsbD_word 5, s.status.getLsbD_word 6, s.status.getLsbD_word 7, ?_, ?_⟩
  · ext j hj
    simp [State.ports, Nat.add_comm 8 j, Status.getLsbD_word, BitVec.getLsbD_eq_getElem hj]
  · ext j hj
    have hword : s.status.word.getLsbD (12 + j) = s.status.residual.getLsbD (j + 4) := by
      rw [show 12 + j = j + 4 + 8 by omega]
      exact s.status.getLsbD_word _
    simp [State.ports, hword]

/-! ## The other ports -/

/-- A port of `w` bits shows a counter that fits them. -/
theorem toNat_counterPort {w c : Nat} (h : c < 2 ^ w) : (BitVec.ofNat w c).toNat = c := by
  rw [BitVec.toNat_ofNat, Nat.mod_eq_of_lt h]

/-- Settles O20: each port read off its definition. -/
theorem portsShowHeadAndCounters : Obligations.PortsShowHeadAndCounters := by
  intro s
  refine ⟨decide_eq_true_iff, decide_eq_true_iff, fun e q hq => ?_, toNat_counterPort, toNat_counterPort,
    toNat_counterPort, toNat_counterPort⟩
  simp [State.ports, State.outByte, State.outTaint, hq]

/-! ## The saturating increment -/

theorem State.satStatus_of_max {s : State} {c : Nat} (h : c = 2 ^ s.params.cntW - 1) :
    s.satStatus c = { s.status with cnt_sat := true } := by
  simp [State.satStatus, (satHit_iff _ _).mpr h]

theorem State.satStatus_of_ne_max {s : State} {c : Nat} (h : c ≠ 2 ^ s.params.cntW - 1) :
    s.satStatus c = s.status := by
  simp [State.satStatus, satHit, h]

/-- `sat_inc` of a counter that holds `c`, whichever field `put` writes it back to (10_state.md R40). -/
theorem State.satInc_eq (s : State) (c : Nat) (put : Nat → Status → State) :
    put (satValue s.params.cntW c) (s.satStatus c)
      = if c = 2 ^ s.params.cntW - 1 then put c { s.status with cnt_sat := true } else put (c + 1) s.status := by
  split
  case isTrue h => rw [satValue_of_max h, State.satStatus_of_max h]
  case isFalse h => rw [satValue_of_ne_max h, State.satStatus_of_ne_max h]

/-- Settles O21: each counter is one use of `sat_inc`. -/
theorem saturatingIncrement : Obligations.SaturatingIncrement := fun s =>
  ⟨s.satInc_eq s.cnt_samples fun n st => { s with cnt_samples := n, status := st },
    s.satInc_eq s.cnt_pairs fun n st => { s with cnt_pairs := n, status := st },
    s.satInc_eq s.cnt_ooc fun n st => { s with cnt_ooc := n, status := st },
    s.satInc_eq s.cnt_bytes fun n st => { s with cnt_bytes := n, status := st }⟩

/-- Settles O38: the frame-clear set is the reset values beside `outq` and the model's own fields. -/
theorem startClearsTheFrame : Obligations.StartClearsTheFrame := by
  intro s d
  have hexec : exec (.start d) s = .next s.frameClear := rfl
  rw [hexec, State.frameClear_eq]

end Sys2Proof.Machine
end

section
/-! The constellation ROM (20_memory.md R60, R61). -/

namespace Sys2Proof.Machine

/-- The ROM exchanges the address blocks 8 to 11 and 12 to 15 and leaves the rest, so it is its own inverse. -/
theorem romC_romC (a : BitVec 4) : romC (romC a) = a := by
  revert a
  decide

theorem demod_symLevels (sym : Symbol) :
    demod (samplePattern (symLevels sym).1) (samplePattern (symLevels sym).2) = (sym, true) := by
  revert sym
  decide

/-- Settles O25: the address of a symbol is what the ROM holds at the address of that number. -/
theorem romIsABijection : Obligations.RomIsABijection := by
  refine fun sym => ⟨⟨romC sym, romC_romC sym, fun b hb => ?_⟩, demod_symLevels sym⟩
  rw [← hb, romC_romC]

end Sys2Proof.Machine
end

section
/-! The queue and the beats (20_memory.md R71, R72): what a beat does never depends on the entries in `outq`, so the
accepted beats alone determine a run. -/

namespace Sys2Proof.Machine

/-! ## A beat as a function of the state -/

/-- The state after one accepted beat (44_stream_control.md R180). -/
def State.afterBeat (s : State) : Instr → State
  | .sample d => if s.status.done then s.seqError else s.sampleRun d
  | .endBeat _ => if s.status.done then s.seqError else s.endRun
  | .srcErr _ => if s.status.done then s.seqError else s.srcErrRun
  | .start _ => s.frameClear

theorem exec_eq_afterBeat (i : Instr) (s : State) : exec i s = .next (s.afterBeat i) := by
  cases i with
  | sample d => exact (apply_ite _ _ _ _).symm
  | endBeat d => exact (apply_ite _ _ _ _).symm
  | srcErr d => exact (apply_ite _ _ _ _).symm
  | start d => rfl

theorem execAll_eq_foldl (beats : List Instr) (s : State) :
    execAll beats s = .next (beats.foldl State.afterBeat s) := by
  induction beats generalizing s with
  | nil => rfl
  | cons i rest ih => rw [execAll, exec_eq_afterBeat, List.foldl_cons, ← ih]

/-- An edge without reset is the pop and then the beat that it accepts, if it accepts one. -/
theorem step_of_no_reset {s : State} (hr : s.portIn.rst = false) :
    step s = .next (s.acceptedNow.toList.foldl State.afterBeat s.beforeBeat) := by
  have hacc : s.takeEdge.accepts s.portIn = s.accepts s.portIn := rfl
  cases ha : s.accepts s.portIn with
  | true => simp [step, State.edgeStep, State.acceptedNow, State.beforeBeat, hr, hacc, ha, exec_eq_afterBeat]
  | false => simp [step, State.edgeStep, State.acceptedNow, State.beforeBeat, hr, hacc, ha]

/-! ## More entries in front of the queue -/

/-- `s` with the entries `front` before its own in the queue, and with other values of the model's own fields, which
no beat reads (log entries 2 to 4). -/
def State.behind (s : State) (front : List Entry) (ps : List PortIn) (e : Option Entry) (n : Nat) : State :=
  { s with outq := front ++ s.outq, inputs := ps, delivered := e, edge := n }

section
variable (s : State) (front : List Entry) (ps : List PortIn) (e : Option Entry) (n : Nat)

theorem State.behind_ite (c : Prop) [Decidable c] (x y : State) : (if c then x else y).behind front ps e n
    = if c then x.behind front ps e n else y.behind front ps e n :=
  apply_ite (State.behind · front ps e n) c x y

/-- The one operation on the queue appends at its tail, so `front` stays in front. -/
theorem State.rfEmit_behind : (s.behind front ps e n).rfEmit = s.rfEmit.behind front ps e n := by
  simp [State.rfEmit_eq, State.behind]

theorem State.rfShift_behind (d t : Bool) :
    (s.behind front ps e n).rfShift d t = (s.rfShift d t).behind front ps e n := by
  rw [State.rfShift, State.rfShift, State.behind_ite, ← State.rfEmit_behind]
  rfl

theorem State.shiftSymbol_behind (sym : Symbol) (t : Bool) :
    (s.behind front ps e n).shiftSymbol sym t = (s.shiftSymbol sym t).behind front ps e n :=
  List.foldl_hom (State.behind · front ps e n) fun x _ => x.advanceKey.rfShift_behind front ps e n _ t

theorem State.recordPair_behind (ok : Bool) :
    (s.behind front ps e n).recordPair ok = (s.recordPair ok).behind front ps e n := by
  cases ok <;> rfl

theorem State.completePair_behind (v : Byte) :
    (s.behind front ps e n).completePair v = (s.completePair v).behind front ps e n := by
  rw [State.completePair_eq, State.completePair_eq, ← State.shiftSymbol_behind, ← State.recordPair_behind]
  rfl

theorem State.sampleRun_eq (v : Byte) :
    s.sampleRun v = if s.have_i then s.completePair v else s.countSample.holdI v := rfl

theorem State.sampleRun_behind (v : Byte) :
    (s.behind front ps e n).sampleRun v = (s.sampleRun v).behind front ps e n := by
  rw [State.sampleRun_eq, State.sampleRun_eq, State.behind_ite, State.completePair_behind]
  rfl

theorem State.close_behind : (s.behind front ps e n).close = s.close.behind front ps e n := by
  rw [State.close_eq, State.close_eq]
  rfl

theorem State.endRun_behind : (s.behind front ps e n).endRun = s.endRun.behind front ps e n :=
  (s.setStatus { s.status with no_data := decide (s.cnt_samples = 0) }).close_behind front ps e n

theorem State.srcErrRun_behind : (s.behind front ps e n).srcErrRun = s.srcErrRun.behind front ps e n :=
  (s.setStatus { s.status with src_err := true }).close_behind front ps e n

/-- A beat has the same effect behind more entries (20_memory.md R72). -/
theorem State.afterBeat_behind (i : Instr) :
    (s.behind front ps e n).afterBeat i = (s.afterBeat i).behind front ps e n := by
  have hseq : (s.behind front ps e n).seqError = s.seqError.behind front ps e n := rfl
  have hdone : (s.behind front ps e n).status.done = s.status.done := rfl
  cases i with
  | sample d => rw [State.afterBeat, State.afterBeat, State.behind_ite, hdone, hseq, State.sampleRun_behind]
  | endBeat d => rw [State.afterBeat, State.afterBeat, State.behind_ite, hdone, hseq, State.endRun_behind]
  | srcErr d => rw [State.afterBeat, State.afterBeat, State.behind_ite, hdone, hseq, State.srcErrRun_behind]
  | start d => rfl

theorem State.foldl_afterBeat_behind (beats : List Instr) :
    beats.foldl State.afterBeat (s.behind front ps e n)
      = (beats.foldl State.afterBeat s).behind front ps e n :=
  List.foldl_hom (State.behind · front ps e n) fun x i => x.afterBeat_behind front ps e n i

end

/-- Beats leave the model's own fields as they are: they do the same behind the values these have. -/
theorem State.foldl_afterBeat_own_fields (s : State) (beats : List Instr) :
    (beats.foldl State.afterBeat s).inputs = s.inputs ∧ (beats.foldl State.afterBeat s).delivered = s.delivered
    ∧ (beats.foldl State.afterBeat s).edge = s.edge := by
  have hself : s.behind [] s.inputs s.delivered s.edge = s := rfl
  have h := s.foldl_afterBeat_behind [] s.inputs s.delivered s.edge beats
  rw [hself] at h
  rw [h]
  exact ⟨rfl, rfl, rfl⟩

/-- Settles O49: the beat has its effect behind `front`, and leaves the model's own fields as they are. -/
theorem beatsIgnoreTheQueue : Obligations.BeatsIgnoreTheQueue := by
  intro i s t front h
  rw [exec_eq_afterBeat] at h ⊢
  obtain rfl := Host.Outcome.next.inj h
  obtain ⟨hinputs, hdelivered, hedge⟩ :
      (s.afterBeat i).inputs = s.inputs ∧ (s.afterBeat i).delivered = s.delivered
        ∧ (s.afterBeat i).edge = s.edge := s.foldl_afterBeat_own_fields [i]
  rw [hinputs, hdelivered, hedge]
  exact congrArg _ (s.afterBeat_behind front s.inputs s.delivered s.edge i)

/-! ## The accepted beats determine the run -/

/-- `s` with nothing in the queue. -/
def State.emptied (s : State) : State := { s with outq := [] }

/-- The state that the beat of an edge meets is the emptied state behind what the pop leaves. -/
theorem State.beforeBeat_eq_behind (s : State) : s.beforeBeat
    = s.emptied.behind s.beforeBeat.outq s.beforeBeat.inputs s.beforeBeat.delivered s.beforeBeat.edge := by
  rw [State.beforeBeat_eq]
  simp [State.behind, State.emptied]

/-- The pop neither loses nor reorders an entry (44_stream_control.md R192). -/
theorem State.beforeBeat_delivered_append_outq (s : State) :
    s.beforeBeat.delivered.toList ++ s.beforeBeat.outq = s.outq := by
  rw [State.beforeBeat_eq]
  cases hp : s.portIn.out_ready <;> cases hq : s.outq <;> simp

theorem State.sameButQueue_behind (t u : State) (front : List Entry) (ps : List PortIn) (e : Option Entry)
    (n : Nat) : t.sameButQueue (u.behind front ps e n) = t.sameButQueue u := rfl

theorem State.sameButQueue_emptied (s : State) : s.sameButQueue s.emptied = true := decide_eq_true rfl

/-- `t` is a state that a run from `s` reaches by accepting `beats` and delivering `out`: its registers are those that
the beats alone give, and no entry is lost or reordered. -/
def State.ReachedBy (s t : State) (beats : List Instr) (out : List Entry) : Prop :=
  t.sameButQueue (beats.foldl State.afterBeat s.emptied) = true
  ∧ out ++ t.outq = s.outq ++ (beats.foldl State.afterBeat s.emptied).outq

theorem State.ReachedBy.refl (s : State) : s.ReachedBy s [] [] :=
  ⟨s.sameButQueue_emptied, (List.append_nil _).symm⟩

/-- One edge before a run: the beats of the run do the same behind what the beats of the edge push. -/
theorem State.ReachedBy.edge {s t : State} {now later : List Instr} {out : List Entry}
    (h : (now.foldl State.afterBeat s.beforeBeat).ReachedBy t later out) :
    s.ReachedBy t (now ++ later) ((now.foldl State.afterBeat s.beforeBeat).delivered.toList ++ out) := by
  set v := now.foldl State.afterBeat s.emptied with hv
  have hnext : now.foldl State.afterBeat s.beforeBeat
      = v.behind s.beforeBeat.outq s.beforeBeat.inputs s.beforeBeat.delivered s.beforeBeat.edge := by
    rw [hv, ← State.foldl_afterBeat_behind, ← State.beforeBeat_eq_behind]
  rw [hnext] at h ⊢
  obtain ⟨hregs, hqueue⟩ := h
  set u := later.foldl State.afterBeat
    (v.behind s.beforeBeat.outq s.beforeBeat.inputs s.beforeBeat.delivered s.beforeBeat.edge).emptied with hu
  have hbeats : (now ++ later).foldl State.afterBeat s.emptied
      = u.behind v.outq v.inputs v.delivered v.edge := by
    rw [List.foldl_append, ← hv, hu, ← State.foldl_afterBeat_behind]
    simp [State.behind, State.emptied]
  refine ⟨by rw [hbeats, State.sameButQueue_behind, hregs], ?_⟩
  calc s.beforeBeat.delivered.toList ++ out ++ t.outq
      = s.beforeBeat.delivered.toList ++ (s.beforeBeat.outq ++ v.outq ++ u.outq) := by
        rw [List.append_assoc, hqueue]; rfl
    _ = s.outq ++ (v.outq ++ u.outq) := by
        rw [List.append_assoc, ← List.append_assoc, State.beforeBeat_delivered_append_outq]
    _ = s.outq ++ ((now ++ later).foldl State.afterBeat s.emptied).outq := by rw [hbeats]; rfl

theorem run_succ_of_step {M : Host.Core} (k : Nat) {s s' : M.State} (h : M.step s = .next s') :
    M.run (k + 1) s = M.run k s' := by
  rw [Host.Core.run, h]

/-- A run without reset is determined by its accepted beats; by induction on the number of edges. -/
theorem run_reachedBy (k : Nat) (s : State) (h : s.resetWithin k = false) :
    ∃ t : State, Host.Core.run core k s = .next t ∧ s.ReachedBy t (acceptedBeats k s) (deliveredEntries k s) := by
  induction k generalizing s with
  | zero => exact ⟨s, rfl, .refl s⟩
  | succ k ih =>
    obtain ⟨hr, hlater⟩ := State.resetWithin_succ h
    have hstep := step_of_no_reset hr
    set s' := s.acceptedNow.toList.foldl State.afterBeat s.beforeBeat
    have hinputs : s'.inputs = s.beforeBeat.inputs := (s.beforeBeat.foldl_afterBeat_own_fields _).1
    have hnoReset : s'.resetWithin k = false := by
      rw [State.resetWithin, hinputs]
      exact hlater
    obtain ⟨t, hrun, hreach⟩ := ih s' hnoReset
    refine ⟨t, (run_succ_of_step (M := core) k hstep).trans hrun, ?_⟩
    rw [acceptedBeats, deliveredEntries, hstep]
    exact hreach.edge

/-- Settles O50: `execAll` folds `afterBeat` over the accepted beats, and the run ends where that fold leads. -/
theorem acceptedBeatsDetermineTheRun : Obligations.AcceptedBeatsDetermineTheRun := by
  intro k s h
  obtain ⟨t, hrun, hregs, hqueue⟩ := run_reachedBy k s h
  exact ⟨t, _, hrun, execAll_eq_foldl _ _, hregs, hqueue⟩

end Sys2Proof.Machine
end

section
/-! Beat words, their decoder and their encoder (30_encoding.md R80 to R85). -/

namespace Sys2Proof.Machine

/-! ## The two fields of a word -/

@[simp] theorem kindField_beatWord (k : BitVec 2) (d : Byte) : kindField (beatWord k d) = k :=
  BitVec.extractLsb'_append_eq_left

@[simp] theorem dataField_beatWord (k : BitVec 2) (d : Byte) : dataField (beatWord k d) = d :=
  BitVec.extractLsb'_append_eq_right

/-- A word is its two fields and nothing else (30_encoding.md R80). -/
@[simp] theorem beatWord_kindField_dataField (w : Word10) : beatWord (kindField w) (dataField w) = w :=
  BitVec.extractLsb'_append_extractLsb'

theorem word_eq_of_fields {v w : Word10} (hkind : kindField v = kindField w) (hdata : dataField v = dataField w) :
    v = w := by
  rw [← beatWord_kindField_dataField v, hkind, hdata, beatWord_kindField_dataField]

theorem dataField_eq_setWidth (w : Word10) : dataField w = w.setWidth 8 :=
  (BitVec.setWidth_eq_extractLsb' (by decide)).symm

theorem toNat_beatWord (k : BitVec 2) (d : Byte) : (beatWord k d).toNat = 0x100 * k.toNat + d.toNat := by
  rw [beatWord, BitVec.toNat_append, ← Nat.shiftLeft_add_eq_or_of_lt d.isLt, Nat.shiftLeft_eq, Nat.mul_comm]

/-- The mask of the opcode map keeps the kind and clears the data (30_encoding.md R82). -/
theorem and_kindMask (w : Word10) : w &&& 0x300#10 = beatWord (kindField w) 0x00#8 := by
  have hmask : (0x300#10 : Word10) = BitVec.allOnes 2 ++ 0x00#8 := rfl
  rw [← beatWord_kindField_dataField w, kindField_beatWord, hmask, beatWord, BitVec.and_append,
    BitVec.and_allOnes, BitVec.and_zero, beatWord]

/-! ## Decoder and encoder -/

theorem decode_encode (i : Instr) : decode (encode i) = i := by
  cases i with
  | sample d => simp [encode, decode]
  | endBeat d => simp [encode, decode]
  | srcErr d => simp [encode, decode]
  | start d => simp [encode, decode]

/-- The four kinds cover every word (30_encoding.md R82). -/
theorem exists_encode_eq (w : Word10) : ∃ i, encode i = w := by
  have kinds : ∀ k : BitVec 2, k = 0b00#2 ∨ k = 0b01#2 ∨ k = 0b10#2 ∨ k = 0b11#2 := by decide
  rw [← beatWord_kindField_dataField w]
  rcases kinds (kindField w) with hk | hk | hk | hk <;> rw [hk]
  · exact ⟨.sample (dataField w), rfl⟩
  · exact ⟨.endBeat (dataField w), rfl⟩
  · exact ⟨.srcErr (dataField w), rfl⟩
  · exact ⟨.start (dataField w), rfl⟩

theorem encode_decode (w : Word10) : encode (decode w) = w := by
  obtain ⟨i, rfl⟩ := exists_encode_eq w
  rw [decode_encode]

theorem decodeNat_toNat (w : Word10) : decodeNat w.toNat = .ok (decode w) := by
  rw [decodeNat, if_pos w.isLt, BitVec.ofNat_toNat, BitVec.setWidth_eq]

theorem decodeNat_of_toNat_encode {i : Instr} {n : Nat} (h : (encode i).toNat = n) : decodeNat n = .ok i := by
  rw [← h, decodeNat_toNat, decode_encode]

/-- Settles O1: a word's number has ten bits, so the opcode-table reading of it is the decoder's. -/
theorem decodeInvertsEncode : Obligations.DecodeInvertsEncode := by
  refine fun i _ => ⟨decode_encode i, ?_⟩
  rw [decodeTableWord, decodeNat_of_toNat_encode rfl]

theorem beatWord_law (i : Instr) : Laws.BeatWord.Statement i := by
  cases i with
  | sample d => exact Laws.BeatWord.sample d
  | endBeat d => exact Laws.BeatWord.endBeat d
  | srcErr d => exact Laws.BeatWord.srcErr d
  | start d => exact Laws.BeatWord.start d

/-- Settles O2: every word is the word of some beat, and decoding inverts encoding. -/
theorem encodeInvertsDecode : Obligations.EncodeInvertsDecode := fun w => by
  obtain ⟨hwf, -, -⟩ := beatWord_law (decode w)
  exact ⟨encode_decode w, hwf⟩

/-- A word in the row of an instruction and with its data is the instruction's word (30_encoding.md R82). -/
theorem decode_of_row {w : Word10} (i : Instr) (hrow : w &&& 0x300#10 = Laws.BeatWord.rowMatch i)
    (hdata : dataField w = Laws.BeatWord.rowData i) : decode w = i := by
  obtain ⟨-, hrow', hdata'⟩ := beatWord_law i
  have hkind : beatWord (kindField w) 0x00#8 = beatWord (kindField (encode i)) 0x00#8 := by
    rw [← and_kindMask, ← and_kindMask, hrow, hrow']
  have hword : w = encode i :=
    word_eq_of_fields (by simpa using congrArg kindField hkind) (hdata.trans hdata'.symm)
  rw [hword, decode_encode]

/-- Settles O3: each row of the opcode map fixes the kind, and the data is the other field. -/
theorem eachMatchRowDecodesToItsBeat : Obligations.EachMatchRowDecodesToItsBeat := by
  intro w
  have hdata := dataField_eq_setWidth w
  exact ⟨fun h => decode_of_row (.sample _) h hdata, fun h => decode_of_row (.endBeat _) h hdata,
    fun h => decode_of_row (.srcErr _) h hdata, fun h => decode_of_row (.start _) h hdata⟩

end Sys2Proof.Machine
end

section
/-! The beat assembler: operands, lines and programs (30_encoding.md R90 to R94). -/

namespace Sys2Proof.Machine

/-! ## Sample operands -/

theorem AsmOperand.sample_dec_in_range {v : Int} (h : -128 ≤ v ∧ v ≤ 127) :
    (AsmOperand.dec v).sample = .ok (samplePattern v) := if_pos h

theorem AsmOperand.sample_dec_out_of_range {v : Int} (h : v < -128 ∨ 127 < v) :
    (AsmOperand.dec v).sample = .error .valueOutOfRange := if_neg (by omega)

theorem AsmOperand.sample_hex_too_wide {p : Nat} (h : 0xFF < p) :
    (AsmOperand.hex p).sample = .error .patternTooWide := if_neg (by omega)

theorem AsmOperand.sample_hex_toNat (d : Byte) : (AsmOperand.hex d.toNat).sample = .ok d := by
  have hd : d.toNat ≤ 0xFF := Nat.le_of_lt_succ d.isLt
  rw [AsmOperand.sample, if_pos hd, BitVec.ofNat_toNat, BitVec.setWidth_eq]

/-! ## Lines -/

theorem assembleLine_sample_ok {o : AsmOperand} {p : Byte} (h : o.sample = .ok p) :
    assembleLine .sample [o] = .ok [encode (.sample p)] := by
  rw [assembleLine, h, Except.map]

theorem assembleLine_sample_error {o : AsmOperand} {e : AsmError} (h : o.sample = .error e) :
    assembleLine .sample [o] = .error e := by
  rw [assembleLine, h, Except.map]

/-- A row of the example table (30_encoding.md R94) needs only its word to be the word of its beat. -/
theorem sample_line_and_word {v : Int} {w : Word10} (hv : -128 ≤ v ∧ v ≤ 127)
    (hw : encode (.sample (samplePattern v)) = w) :
    decode w = .sample (samplePattern v) ∧ assembleLine .sample [.dec v] = .ok [w] := by
  rw [← hw]
  exact ⟨decode_encode _, assembleLine_sample_ok (AsmOperand.sample_dec_in_range hv)⟩

/-- An assembler writes the data 0x00 for the three bare beats (30_encoding.md R84). -/
theorem assembleLine_bare : assembleLine .endBeat [] = .ok [0x100#10] ∧ assembleLine .srcErr [] = .ok [0x200#10]
    ∧ assembleLine .start [] = .ok [0x300#10] := ⟨rfl, rfl, rfl⟩

/-- A SAMPLE line that is not refused is the one beat of its operand's pattern. -/
theorem sample_of_assembleLine_ok {o : AsmOperand} {ws : List Word10} (h : assembleLine .sample [o] = .ok ws) :
    ∃ p, o.sample = .ok p ∧ ws = [encode (.sample p)] := by
  cases hp : o.sample with
  | error e => simp [assembleLine_sample_error hp] at h
  | ok p =>
    rw [assembleLine_sample_ok hp] at h
    exact ⟨p, rfl, (Except.ok.inj h).symm⟩

theorem assembleLine_pair_ok {i q : AsmOperand} {vi vq : Byte} (hi : i.sample = .ok vi) (hq : q.sample = .ok vq) :
    assembleLine .pair [i, q] = .ok [encode (.sample vi), encode (.sample vq)] := by
  simp [assembleLine, assemblePair, hi, hq]

/-- `SYM s` is `PAIR I(s), Q(s)` (30_encoding.md R93). -/
theorem assembleLine_sym_toNat (sym : Symbol) : assembleLine .sym [.dec (sym.toNat : Int)]
    = assembleLine .pair [.dec (symLevels sym).1, .dec (symLevels sym).2] := by
  have hrange : (0 : Int) ≤ sym.toNat ∧ (sym.toNat : Int) ≤ 15 := by
    have := sym.isLt
    omega
  simp [assembleLine, assembleSym, AsmOperand.value, hrange]

theorem assembleLine_sym_out_of_range {v : Int} (h : v < 0 ∨ 15 < v) :
    assembleLine .sym [.dec v] = .error .symbolOutOfRange := by
  have hv : ¬ (0 ≤ v ∧ v ≤ 15) := by omega
  exact if_neg hv

theorem symLevels_in_range (sym : Symbol) :
    (-128 ≤ (symLevels sym).1 ∧ (symLevels sym).1 ≤ 127) ∧ (-128 ≤ (symLevels sym).2 ∧ (symLevels sym).2 ≤ 127) := by
  revert sym
  decide

theorem assembleText_unknown_mnemonic {line : List Char} (htext : trimLine (cutComment line) ≠ [])
    (hm : readMnemonic ((trimLine (cutComment line)).takeWhile fun c => !isBlankChar c) = none) :
    assembleText line = .error .unknownMnemonic := by
  simp [assembleText, htext, hm]

/-! ## Programs -/

/-- The first line refused is the one that the refusal names, counted from the number of the first line. -/
theorem assembleFrom_first_error {before : List (List Char)} {line : List Char} {e : AsmError}
    (rest : List (List Char)) (hbefore : ∀ l ∈ before, ∃ ws, assembleText l = .ok ws)
    (hline : assembleText line = .error e) (n : Nat) :
    assembleFrom n (before ++ line :: rest) = .error (n + before.length, e) := by
  induction before generalizing n with
  | nil => simp [assembleFrom, hline]
  | cons l before ih =>
    obtain ⟨⟨ws, hl⟩, hbefore⟩ := List.forall_mem_cons.mp hbefore
    simp [assembleFrom, hl, ih hbefore, Nat.add_assoc, Nat.add_comm 1]

/-! ## The statements -/

/-- Settles O56: a SAMPLE line is refused as its operand is, and a program at its first line refused. -/
theorem assemblerRefusals : Obligations.AssemblerRefusals := by
  refine ⟨?value, ?pattern, ?operand, ?mnemonic, ?line, ?sample, ?hex⟩
  case value => exact fun v h => assembleLine_sample_error (AsmOperand.sample_dec_out_of_range h)
  case pattern => exact fun p h => assembleLine_sample_error (AsmOperand.sample_hex_too_wide h)
  case operand => exact fun o os => ⟨rfl, rfl, rfl⟩
  case mnemonic => exact fun line => assembleText_unknown_mnemonic
  case line =>
    intro before rest line e hbefore hline
    rw [assemble, assembleFrom_first_error rest hbefore hline, Nat.add_comm]
  case sample => exact fun v h => assembleLine_sample_ok (AsmOperand.sample_dec_in_range h)
  case hex => exact fun d => assembleLine_sample_ok (AsmOperand.sample_hex_toNat d)

/-- Settles O4: one example row for each sample value, then the three bare beats. -/
theorem exampleWordsDecode : Obligations.ExampleWordsDecode := by
  obtain ⟨decode_neg3, line_neg3⟩ := sample_line_and_word (v := -3) (w := 0x0FD#10) (by decide) (by decide)
  obtain ⟨decode_neg1, line_neg1⟩ := sample_line_and_word (v := -1) (w := 0x0FF#10) (by decide) (by decide)
  obtain ⟨decode_1, line_1⟩ := sample_line_and_word (v := 1) (w := 0x001#10) (by decide) (by decide)
  obtain ⟨decode_3, line_3⟩ := sample_line_and_word (v := 3) (w := 0x003#10) (by decide) (by decide)
  obtain ⟨decode_0, line_0⟩ := sample_line_and_word (v := 0) (w := 0x000#10) (by decide) (by decide)
  obtain ⟨decode_max, line_max⟩ := sample_line_and_word (v := 127) (w := 0x07F#10) (by decide) (by decide)
  obtain ⟨decode_min, line_min⟩ := sample_line_and_word (v := -128) (w := 0x080#10) (by decide) (by decide)
  exact ⟨decode_neg3, decode_neg1, decode_1, decode_3, decode_0, decode_max, decode_min,
    decode_encode (.endBeat 0x00#8), decode_encode (.srcErr 0x00#8), decode_encode (.start 0x00#8),
    line_neg3, line_neg1, line_1, line_3, line_0, line_max, line_min, assembleLine_bare⟩

/-- Settles O5: the meanings of these beats do not mention the data, and the word of each is its kind times 0x100
plus its data. -/
theorem closingAndStartDataIsIgnored : Obligations.ClosingAndStartDataIsIgnored := by
  refine ⟨fun d s => ⟨rfl, rfl, rfl⟩, fun d => ⟨?_, ?_, ?_⟩, assembleLine_bare⟩
  · exact decodeNat_of_toNat_encode (toNat_beatWord 0b01#2 d)
  · exact decodeNat_of_toNat_encode (toNat_beatWord 0b10#2 d)
  · exact decodeNat_of_toNat_encode (toNat_beatWord 0b11#2 d)

/-- Settles O57: the levels of a symbol are in the range of a sample, so SYM is never refused as a pair, and the
demodulator gives the symbol back. -/
theorem pseudoInstructionsExpand : Obligations.PseudoInstructionsExpand := by
  refine ⟨?pair, assembleLine_sym_toNat, ?levels, ?example12, fun v => assembleLine_sym_out_of_range⟩
  case pair =>
    intro i q wi wq hi hq
    obtain ⟨vi, hvi, rfl⟩ := sample_of_assembleLine_ok hi
    obtain ⟨vq, hvq, rfl⟩ := sample_of_assembleLine_ok hq
    exact assembleLine_pair_ok hvi hvq
  case levels =>
    intro sym
    obtain ⟨hi, hq⟩ := symLevels_in_range sym
    refine ⟨_, _, ?_, demod_symLevels sym⟩
    rw [assembleLine_sym_toNat]
    exact assembleLine_pair_ok (AsmOperand.sample_dec_in_range hi) (AsmOperand.sample_dec_in_range hq)
  case example12 => exact assembleLine_sym_toNat 12#4

end Sys2Proof.Machine
end

section
/-! The demodulator (40_demodulator.md): which samples are levels, their level codes, and the structure of the
constellation table. -/

namespace Sys2Proof.Machine

/-! ## Validity and the level code -/

theorem valid_iff_mem (v : Byte) : valid v = true ↔ v ∈ [0xFD#8, 0xFF#8, 0x01#8, 0x03#8] := by
  simp [valid, or_assoc]

/-- The four levels in rising order are valid, and their level codes count them (40_demodulator.md R101). -/
theorem valid_levelCode_of_level (a : Fin 4) :
    valid (samplePattern (2 * (a.val : Int) - 3)) = true
    ∧ levelCode (samplePattern (2 * (a.val : Int) - 3)) = BitVec.ofFin a := by
  revert a
  decide

/-- The fields that the gate form of VALID reads, and bit 1 between them, make up the byte. -/
theorem byte_eq_iff_fields (v w : Byte) :
    v = w ↔ v.extractLsb' 2 6 = w.extractLsb' 2 6 ∧ v.getLsbD 1 = w.getLsbD 1 ∧ v.getLsbD 0 = w.getLsbD 0 := by
  refine ⟨fun h => by simp [h], fun ⟨high, bit1, bit0⟩ => BitVec.eq_of_getLsbD_eq fun i hi => ?_⟩
  match i with
  | 0 => exact bit0
  | 1 => exact bit1
  | j + 2 =>
    have hj : j < 6 := by omega
    have bits := congrArg (fun x => x.getLsbD j) high
    simpa [hj, Nat.add_comm] using bits

/-- The gate form of VALID (40_demodulator.md R100): a level is odd, and its bits above bit 1 are all alike; bit 1
is free, which gives two levels of each sign. -/
theorem valid_eq_gates (v : Byte) :
    valid v = (v.getLsbD 0 && (v.extractLsb' 2 6 == 0b000000#6 || v.extractLsb' 2 6 == 0b111111#6)) := by
  rw [Bool.eq_iff_iff, valid_iff_mem]
  simp only [List.mem_cons, List.not_mem_nil, or_false, byte_eq_iff_fields v]
  cases v.getLsbD 1 <;> simp [or_comm, and_comm (a := v[0] = true), or_and_right]

/-- The gate form of LC (40_demodulator.md R101), level by level. -/
theorem levelCode_eq_gates {v : Byte} (h : valid v = true) :
    levelCode v = BitVec.ofBool (!v.getLsbD 2) ++ BitVec.ofBool (v.getLsbD 1) := by
  have hmem := (valid_iff_mem v).mp h
  simp only [List.mem_cons, List.not_mem_nil, or_false] at hmem
  obtain rfl | rfl | rfl | rfl := hmem <;> rfl

/-! ## The lookup -/

theorem demod_of_valid {i q : Byte} (hi : valid i = true) (hq : valid q = true) :
    demod i q = (romC (levelCode i ++ levelCode q), true) := by
  simp [demod, hi, hq]

theorem demod_of_not_valid {i q : Byte} (h : ¬ (valid i = true ∧ valid q = true)) : demod i q = (0b0000#4, false) :=
  if_neg (by simpa using h)

/-- The ROM's four rows, one for each I level (20_memory.md R60). -/
theorem romC_of_codes (a b : Fin 4) :
    romC (BitVec.ofFin (w := 2) a ++ BitVec.ofFin (w := 2) b)
      = (#v[#v[0#4, 1#4, 2#4, 3#4], #v[4#4, 5#4, 6#4, 7#4], #v[12#4, 13#4, 14#4, 15#4],
            #v[8#4, 9#4, 10#4, 11#4]][a.val])[b.val] := by
  revert a b
  decide

/-- The Q half of the address passes through the ROM unchanged (40_demodulator.md R106). -/
theorem romC_column (a : BitVec 4) : (romC a).extractLsb' 0 2 = a.extractLsb' 0 2 := by
  revert a
  decide

/-- The I half of the address leaves the ROM Gray-coded (40_demodulator.md R106). -/
theorem romC_row (a : BitVec 4) :
    (romC a).extractLsb' 2 2 = (#v[0#2, 1#2, 3#2, 2#2])[(a.extractLsb' 2 2).toNat]'(a.extractLsb' 2 2).isLt := by
  revert a
  decide

/-! ## The obligations -/

/-- Settles O22: the level codes of the pair are its row and column, and the ROM is read there. -/
theorem constellationTable : Obligations.ConstellationTable := by
  intro a b
  obtain ⟨hvalid_i, hcode_i⟩ := valid_levelCode_of_level a
  obtain ⟨hvalid_q, hcode_q⟩ := valid_levelCode_of_level b
  rw [demod_of_valid hvalid_i hvalid_q, hcode_i, hcode_q, romC_of_codes]

/-- Settles O23: a rail that is no level is not valid, and the lookup needs both rails valid. -/
theorem outOfConstellationPairGivesSymbolZero : Obligations.OutOfConstellationPairGivesSymbolZero := by
  intro i q hout
  refine demod_of_not_valid fun ⟨hi, hq⟩ => ?_
  rcases hout with hnot_i | hnot_q
  · exact hnot_i ((valid_iff_mem i).mp hi)
  · exact hnot_q ((valid_iff_mem q).mp hq)

/-- Settles O24: the two gate forms, then the two halves of a ROM entry. -/
theorem levelGateForms : Obligations.LevelGateForms :=
  ⟨valid_eq_gates, fun _ => levelCode_eq_gates, fun a => ⟨romC_column a, romC_row a⟩⟩

end Sys2Proof.Machine
end

section
/-! The bit assembler (41_bit_assembler.md): the place of each bit in the bitstream of a whole frame. -/

namespace Sys2Proof.Machine

/-- A concatenation of blocks of one length `w`: position `i` lies in block `i / w`, at offset `i % w`. -/
theorem getElem?_flatMap_of_length_eq {α β : Type} {w : Nat} (hw : 0 < w) {f : α → List β}
    (hlen : ∀ a, (f a).length = w) (l : List α) (i : Nat) :
    (l.flatMap f)[i]? = l[i / w]?.bind fun a => (f a)[i % w]? := by
  induction l generalizing i with
  | nil => simp
  | cons a l ih =>
    rw [List.flatMap_cons]
    by_cases hi : i < w
    · rw [List.getElem?_append_left (by rwa [hlen]), Nat.div_eq_of_lt hi, Nat.mod_eq_of_lt hi]
      rfl
    · have hwi : w ≤ i := Nat.le_of_not_lt hi
      rw [List.getElem?_append_right (by rwa [hlen]), hlen, ih, Nat.mod_eq_sub_mod hwi,
        Nat.div_eq_sub_div hw hwi, List.getElem?_cons_succ]

@[simp] theorem length_ser (sym : Symbol) : (ser sym).length = 4 := rfl

/-- A symbol is sent from its bit 3 down (41_bit_assembler.md R120). -/
theorem getElem?_ser (sym : Symbol) {j : Nat} (hj : j < 4) : (ser sym)[j]? = some (sym.getLsbD (3 - j)) := by
  match j, hj with
  | 0, _ | 1, _ | 2, _ | 3, _ => rfl

/-- Each bit of the frame's bitstream, with the taint of its pair (41_bit_assembler.md R121; 43_reframer.md R163). -/
theorem getElem?_frameBits (samples : List Byte) (i : Nat) :
    (frameBits samples)[i]?
      = (framePairs samples)[i / 4]?.map fun p =>
          ((demod p.1 p.2).1.getLsbD (3 - i % 4), !(demod p.1 p.2).2) := by
  have hoffset : i % 4 < 4 := Nat.mod_lt i (by decide)
  rw [frameBits, getElem?_flatMap_of_length_eq (w := 4) (by decide) (fun p => by simp), Option.map_eq_bind]
  simp only [List.getElem?_map, getElem?_ser _ hoffset, Option.map_some, Function.comp_def]

/-- Settles O51: every pair gives one block of four bits, so bit `i` is at offset `i % 4` of block `i / 4`. -/
theorem frameBitIsTheSymbolBit : Obligations.FrameBitIsTheSymbolBit := by
  intro samples i
  rw [getElem?_frameBits, Option.map_map]
  rfl

end Sys2Proof.Machine
end

section
/-! The descrambler (42_descrambler.md): the key bit of each bit of a stream, and the 4-lane form of the pair
step's loop. -/

namespace Sys2Proof.Machine

/-! ## The key -/

theorem keyNibble_eq_table (k : Fin 13) : keyNibble k
    = (#v[0xB#4, 0x7#4, 0xE#4, 0xC#4, 0x8#4, 0x1#4, 0x2#4, 0x5#4, 0xA#4, 0x4#4, 0x9#4, 0x2#4, 0x5#4])[k.val] := by
  revert k
  decide

theorem key_eq_keyPacked_bit (k : Fin 13) : key k = keyPacked.getLsbD k.val := by
  revert k
  decide

/-- Settles O26: the thirteen rows of each table. -/
theorem keyNibbleTable : Obligations.KeyNibbleTable := ⟨keyNibble_eq_table, key_eq_keyPacked_bit⟩

/-- Bit `3 - j` of a key nibble is `KEY[(k + j) mod 13]` (42_descrambler.md R144). -/
theorem keyNibble_bits (k : Fin 13) :
    (keyNibble k).getLsbD 3 = key k ∧ (keyNibble k).getLsbD 2 = key (k + 1)
    ∧ (keyNibble k).getLsbD 1 = key (k + 2) ∧ (keyNibble k).getLsbD 0 = key (k + 3) := by
  simp only [keyNibble, getLsbD_append_ofBool]
  simp

theorem cyclicKey_val (k : Fin 13) : cyclicKey k.val = key k :=
  congrArg key (Fin.ext (Nat.mod_eq_of_lt k.isLt))

/-- The key index wraps at 13 exactly as the cyclic index does. -/
theorem cyclicKey_succ (k : Fin 13) (j : Nat) : cyclicKey ((k + 1).val + j) = cyclicKey (k.val + (j + 1)) := by
  have hmod : ((k + 1).val + j) % 13 = (k.val + (j + 1)) % 13 := by
    rw [Fin.val_add, Nat.mod_add_mod, Nat.add_assoc, Nat.add_comm j 1]
    rfl
  exact congrArg key (Fin.ext hmod)

/-! ## A stream of bits -/

/-- The first bit meets the key bit of the present index, and the rest of the stream starts at the next index. -/
theorem getElem?_descramble (k : Fin 13) (bits : List Bool) (j : Nat) :
    (descramble k bits)[j]? = bits[j]?.map fun b => b ^^ cyclicKey (k.val + j) := by
  induction bits generalizing k j with
  | nil => rfl
  | cons b bits ih =>
    cases j with
    | zero => simp [descramble, descBit, cyclicKey_val]
    | succ j => simp [descramble, ih, cyclicKey_succ]

/-- Settles O28, by induction on the stream. -/
theorem descrambledBitUsesTheCyclicKey : Obligations.DescrambledBitUsesTheCyclicKey := getElem?_descramble

/-- Settles O27: bit `j` meets the same key bit both times, and the two cancel (42_descrambler.md R143). -/
theorem descramblerIsSelfInverse : Obligations.DescramblerIsSelfInverse := by
  intro k bits
  refine List.ext_getElem? fun j => ?_
  have hcancel (b : Bool) : (b ^^ cyclicKey (k.val + j) ^^ cyclicKey (k.val + j)) = b := by simp
  simp only [getElem?_descramble, Option.map_map, Function.comp_def, hcancel, Option.map_id_fun', id]

/-! ## The 4-lane form -/

/-- A nibble shifted in at once is its four bits shifted in one by one, MSB first (20_memory.md R65, R67). -/
theorem shiftNibble_eq_shiftByte (sr : Byte) (n : BitVec 4) : shiftNibble sr n
    = shiftByte (shiftByte (shiftByte (shiftByte sr (n.getLsbD 3)) (n.getLsbD 2)) (n.getLsbD 1)) (n.getLsbD 0) := by
  refine BitVec.eq_of_getLsbD_eq fun i hi => ?_
  rw [getLsbD_shiftNibble]
  simp only [getLsbD_shiftByte]
  match i, hi with
  | 0, _ | 1, _ | 2, _ | 3, _ => rfl
  | j + 4, hi => simp [hi, show j + 3 < 8 by omega, show j + 2 < 8 by omega, show j + 1 < 8 by omega]

/-- The four bits of a symbol, descrambled one after the other, make up its lane nibble (42_descrambler.md R144). -/
theorem State.shiftNibble_laneNibble (s : State) (sr : Byte) (sym : Symbol) : shiftNibble sr (s.laneNibble sym)
    = shiftByte (shiftByte (shiftByte (shiftByte sr (sym.getLsbD 3 ^^ key s.key_idx))
        (sym.getLsbD 2 ^^ key (s.key_idx + 1))) (sym.getLsbD 1 ^^ key (s.key_idx + 2)))
        (sym.getLsbD 0 ^^ key (s.key_idx + 3)) := by
  obtain ⟨h3, h2, h1, h0⟩ := keyNibble_bits s.key_idx
  rw [shiftNibble_eq_shiftByte, State.laneNibble]
  simp only [BitVec.getLsbD_xor, h3, h2, h1, h0]

/-- Three turns of the loop that complete no byte. -/
theorem State.bitStep_three (s : State) (t b2 b1 b0 : Bool) (h : s.bit_cnt ≤ 4) :
    ((s.bitStep t b2).bitStep t b1).bitStep t b0 = { s with
      key_idx := s.key_idx + 3
      sr := shiftByte (shiftByte (shiftByte s.sr (b2 ^^ key s.key_idx)) (b1 ^^ key (s.key_idx + 1)))
        (b0 ^^ key (s.key_idx + 2))
      bit_cnt := s.bit_cnt + 3
      byte_taint := s.byte_taint || t } := by
  have hcnt : ∀ c : Fin 8, c ≤ 4 → c ≠ 7 ∧ c + 1 ≠ 7 ∧ c + 2 ≠ 7 := by decide
  obtain ⟨h0, h1, h2⟩ := hcnt _ h
  simp [State.bitStep_within, h0, h1, h2, add_assoc]

/-- The loop from a reframer that holds no bit: nothing is emitted. -/
theorem State.shiftSymbol_of_no_bit (s : State) (sym : Symbol) (t : Bool) (h : s.bit_cnt = 0) :
    s.shiftSymbol sym t = s.advanceKeyByPair.laneFirst (s.laneNibble sym) t := by
  have hlast : s.bit_cnt + 3 ≠ 7 := by rw [h]; decide
  rw [State.shiftSymbol_eq, State.bitStep_three s t _ _ _ (by rw [h]; decide), State.bitStep_within _ _ _ hlast]
  simp [State.laneFirst, State.advanceKeyByPair, State.shiftNibble_laneNibble, h, add_assoc]

/-- The loop from a reframer that holds four bits: the last turn emits the byte. -/
theorem State.shiftSymbol_of_four_bits (s : State) (sym : Symbol) (t : Bool) (h : s.bit_cnt = 4) :
    s.shiftSymbol sym t = s.advanceKeyByPair.laneSecond (s.laneNibble sym) t := by
  have hlast : s.bit_cnt + 3 = 7 := by rw [h]; rfl
  rw [State.shiftSymbol_eq, State.bitStep_three s t _ _ _ (by rw [h]), State.bitStep_last _ _ _ hlast]
  simp [State.laneSecond, State.rfEmit_eq, State.advanceKeyByPair, State.shiftNibble_laneNibble, add_assoc]

/-- Settles O29: the two nibble boundaries. -/
theorem laneFormEqualsSerialLoop : Obligations.LaneFormEqualsSerialLoop := by
  intro s sym t hboundary
  rcases hboundary with h | h
  · rw [State.shiftSymbol_of_no_bit s sym t h, State.shiftSymbolLanes, if_pos h]
  · have hne : s.bit_cnt ≠ 0 := by rw [h]; decide
    rw [State.shiftSymbol_of_four_bits s sym t h, State.shiftSymbolLanes, if_neg hne]

end Sys2Proof.Machine
end

section
/-! The reframer (43_reframer.md): eight bits make a byte, a beat pushes at most one byte, and the bytes of a whole
frame are its descrambled bitstream in groups of eight. -/

namespace Sys2Proof.Machine

/-! ## Eight bits in the shift register -/

/-- A shift doubles the register, drops what passes bit 7, and adds the new bit (43_reframer.md R160). -/
theorem toNat_shiftByte (sr : Byte) (d : Bool) : (shiftByte sr d).toNat = (2 * sr.toNat + d.toNat) % 256 := by
  have hd : d.toNat ≤ 1 := Bool.toNat_le d
  simp only [shiftByte, BitVec.toNat_append, BitVec.extractLsb'_toNat, BitVec.toNat_ofBool, Nat.shiftRight_zero]
  rw [← Nat.shiftLeft_add_eq_or_of_lt (by omega), Nat.shiftLeft_eq]
  omega

/-- Eight shifts fill the register, whatever it held, and leave the first bit in bit 7 (20_memory.md R66). -/
theorem shiftByte_eight (sr : Byte) (b0 b1 b2 b3 b4 b5 b6 b7 : Bool) :
    shiftByte (shiftByte (shiftByte (shiftByte (shiftByte (shiftByte (shiftByte (shiftByte sr b0) b1) b2) b3) b4)
      b5) b6) b7 = byteOfBits b0 b1 b2 b3 b4 b5 b6 b7 := by
  refine BitVec.eq_of_toNat_eq ?_
  simp only [toNat_shiftByte, byteOfBits, BitVec.toNat_ofNat]
  omega

/-- Bits that complete no byte are only shifted in, and their taints gathered (43_reframer.md R160). -/
theorem State.foldl_rfShift_within (s : State) (l : List (Bool × Bool)) (h : s.bit_cnt.val + l.length < 8) :
    l.foldl (fun u b => u.rfShift b.1 b.2) s = { s with
      sr := l.foldl (fun sr b => shiftByte sr b.1) s.sr
      bit_cnt := ⟨s.bit_cnt.val + l.length, h⟩
      byte_taint := s.byte_taint || l.any Prod.snd } := by
  induction l generalizing s with
  | nil => simp
  | cons b l ih =>
    rw [List.length_cons] at h
    have hne : s.bit_cnt ≠ 7 := Fin.ne_of_val_ne (show s.bit_cnt.val ≠ 7 by omega)
    have hval : (s.bit_cnt + 1).val = s.bit_cnt.val + 1 :=
      Nat.mod_eq_of_lt (show s.bit_cnt.val + 1 < 8 by omega)
    have hroom : (s.rfShift b.1 b.2).bit_cnt.val + l.length < 8 := by
      rw [State.rfShift_within s _ _ hne]
      dsimp only
      omega
    rw [List.foldl_cons, ih _ hroom]
    simp [State.rfShift_within s _ _ hne, hval, Bool.or_assoc, Nat.add_assoc, Nat.add_comm 1]

/-- The bit that completes a byte emits it, with the taints of all its bits (43_reframer.md R160, R161). -/
theorem State.foldl_rfShift_concat (s : State) (l : List (Bool × Bool)) (b : Bool × Bool)
    (h : s.bit_cnt.val + l.length = 7) :
    (l ++ [b]).foldl (fun u b => u.rfShift b.1 b.2) s = { s with
      outq := s.outq ++ [{ byte := (l ++ [b]).foldl (fun sr b => shiftByte sr b.1) s.sr
                           taint := s.byte_taint || (l ++ [b]).any Prod.snd }]
      cnt_bytes := satValue s.params.cntW s.cnt_bytes
      status := { s.status with cnt_sat := s.status.cnt_sat || satHit s.params.cntW s.cnt_bytes }
      sr := 0x00#8
      bit_cnt := 0
      byte_taint := false } := by
  rw [List.foldl_append, s.foldl_rfShift_within l (by omega), List.foldl_cons, List.foldl_nil,
    State.rfShift_last _ _ _ (Fin.ext h)]
  simp [Bool.or_assoc]

/-- Settles O30: the eighth bit emits the byte, and eight shifts have filled the register. -/
theorem eightShiftsEmitTheByte : Obligations.EightShiftsEmitTheByte := by
  intro s b0 b1 b2 b3 b4 b5 b6 b7 t0 t1 t2 t3 t4 t5 t6 t7 hcnt htaint
  have hemit := s.foldl_rfShift_concat [(b0, t0), (b1, t1), (b2, t2), (b3, t3), (b4, t4), (b5, t5), (b6, t6)]
    (b7, t7) (by rw [hcnt]; rfl)
  simpa [htaint, shiftByte_eight, Bool.or_assoc] using hemit

/-! ## What a beat does to the queue -/

theorem State.shiftSymbol_outq (s : State) (sym : Symbol) (t : Bool) :
    (s.shiftSymbol sym t).outq = s.outq ∨ ∃ e, (s.shiftSymbol sym t).outq = s.outq ++ [e] := by
  obtain ⟨byte, sr', h⟩ := State.shiftSymbol_cases s.key_idx s.sr s.bit_cnt sym
  obtain ⟨hfirst, hsecond⟩ := h s t rfl rfl rfl
  rcases lt_or_ge s.bit_cnt 4 with hc | hc
  · exact .inl (by rw [hfirst hc])
  · exact .inr ⟨_, by rw [hsecond hc]⟩

theorem State.completePair_outq (s : State) (v : Byte) :
    (s.completePair v).outq = s.outq ∨ ∃ e, (s.completePair v).outq = s.outq ++ [e] := by
  simpa [State.completePair_eq] using (s.countSample.dropI.recordPair (demod s.i_reg v).2).shiftSymbol_outq
    (demod s.i_reg v).1 (!(demod s.i_reg v).2)

theorem State.close_outq (s : State) : s.close.outq = s.outq := by rw [State.close_eq]

/-- Settles O35: of everything a beat can do, only the Q rail of SAMPLE reaches the queue. -/
theorem oneBeatPushesAtMostOneEntry : Obligations.OneBeatPushesAtMostOneEntry := by
  intro i s t h
  rcases exec_cases h with ⟨_, -, rfl⟩ | ⟨-, -, rfl⟩ | ⟨-, _, -, -, rfl⟩ | ⟨hd, v, rfl, hi, rfl⟩ | ⟨-, _, -, rfl⟩
    | ⟨-, _, -, rfl⟩
  · exact .inl rfl
  · exact .inl rfl
  · exact .inl rfl
  · exact (s.completePair_outq v).imp_right fun ⟨e, he⟩ => ⟨v, e, rfl, hd, hi, he⟩
  · exact .inl (State.close_outq _)
  · exact .inl (State.close_outq _)

/-! ## The bytes of a bitstream -/

/-- Bit `7 - j` of a byte is bit `j` of its group (43_reframer.md R161). -/
theorem getLsbD_groupEntry_byte (bits : List (Bool × Bool)) (n : Nat) {j : Nat} (hj : j < 8) :
    (groupEntry bits n).byte.getLsbD (7 - j) = (bits.getD (8 * n + j) (false, false)).1 := by
  rw [groupEntry, ← shiftByte_eight 0x00#8]
  simp only [getLsbD_shiftByte]
  match j, hj with
  | 0, _ | 1, _ | 2, _ | 3, _ | 4, _ | 5, _ | 6, _ | 7, _ => rfl

/-- A byte whose two nibbles have one taint each is tainted when one of them is (43_reframer.md R163). -/
theorem groupEntry_taint_of_nibbles (bits : List (Bool × Bool)) (n : Nat) {t t' : Bool}
    (hfirst : ∀ j < 4, (bits.getD (8 * n + j) (false, false)).2 = t)
    (hsecond : ∀ j, 4 ≤ j → j < 8 → (bits.getD (8 * n + j) (false, false)).2 = t') :
    (groupEntry bits n).taint = (t || t') := by
  simp (disch := decide) only [groupEntry, hfirst, hsecond, Bool.or_self, Bool.or_assoc]

theorem getElem?_groupBytes (bits : List (Bool × Bool)) (n : Nat) :
    (groupBytes bits)[n]? = if n < bits.length / 8 then some (groupEntry bits n) else none := by
  rw [groupBytes, List.getElem?_map]
  by_cases h : n < bits.length / 8 <;> simp [h]

/-- The bits of a byte, MSB first (43_reframer.md R165). -/
def msbFirst (b : Byte) : List Bool := (List.range 8).map fun j => b.getLsbD (7 - j)

theorem length_msbFirst (b : Byte) : (msbFirst b).length = 8 := by simp [msbFirst]

theorem getElem?_msbFirst (b : Byte) {j : Nat} (hj : j < 8) : (msbFirst b)[j]? = some (b.getLsbD (7 - j)) := by
  simp [msbFirst, hj]

/-- The bytes of any bitstream hold its whole groups of eight bits, in order. -/
theorem flatMap_msbFirst_groupBytes (bits : List (Bool × Bool)) :
    (groupBytes bits).flatMap (fun e => msbFirst e.byte) = (bits.map Prod.fst).take (8 * (bits.length / 8)) := by
  refine List.ext_getElem? fun i => ?_
  have hi : i % 8 < 8 := Nat.mod_lt i (by decide)
  have hlen (e : Entry) : (msbFirst e.byte).length = 8 := length_msbFirst e.byte
  rw [getElem?_flatMap_of_length_eq (by decide) hlen, getElem?_groupBytes]
  by_cases h : i / 8 < bits.length / 8
  · have hlt : i < 8 * (bits.length / 8) := by omega
    have hbits : i < bits.length := by omega
    rw [if_pos h, Option.bind_some, getElem?_msbFirst _ hi, getLsbD_groupEntry_byte _ _ hi, Nat.div_add_mod,
      List.getElem?_take_of_lt hlt]
    simp [hbits]
  · have hge : 8 * (bits.length / 8) ≤ i := by omega
    rw [if_neg h, List.getElem?_take, if_neg (Nat.not_lt.mpr hge)]
    rfl

/-! ## The bytes of a frame -/

theorem length_frameBits (samples : List Byte) : (frameBits samples).length = 4 * (framePairs samples).length := by
  simp [frameBits, List.length_flatMap, Nat.mul_comm]

@[simp] theorem length_frameDescrambled (samples : List Byte) :
    (frameDescrambled samples).length = (frameBits samples).length := by
  simp [frameDescrambled]

/-- Settles O53: the frame's bytes are those of its descrambled bitstream, which is as long as its bitstream. -/
theorem reexpandedBytesAreTheBitstream : Obligations.ReexpandedBytesAreTheBitstream := by
  intro samples
  exact ⟨flatMap_msbFirst_groupBytes _, by simp [frameEntries, groupBytes]⟩

/-- The four bits of a pair carry its taint through the descrambler (43_reframer.md R163). -/
theorem frameDescrambled_taint {samples : List Byte} {m : Nat} {p : Byte × Byte}
    (hp : (framePairs samples)[m]? = some p) {i : Nat} (hi : i / 4 = m) :
    ((frameDescrambled samples).getD i (false, false)).2 = !(demod p.1 p.2).2 := by
  simp [frameDescrambled, List.getD_eq_getElem?_getD, getElem?_frameBits, hi, hp]

/-- Settles O52: pair `2n` gives the first nibble of byte `n`, and pair `2n+1` its second. -/
theorem byteTaintIsThatOfItsTwoPairs : Obligations.ByteTaintIsThatOfItsTwoPairs := by
  intro samples n p p' hp hp'
  have hpairs : 2 * n + 1 < (framePairs samples).length := (List.getElem?_eq_some_iff.mp hp').1
  have hn : n < (frameDescrambled samples).length / 8 := by
    rw [length_frameDescrambled, length_frameBits]
    omega
  have htaint := groupEntry_taint_of_nibbles (frameDescrambled samples) n
    (fun j hj => frameDescrambled_taint hp (i := 8 * n + j) (by omega))
    (fun j hlo hhi => frameDescrambled_taint hp' (i := 8 * n + j) (by omega))
  rw [frameEntries, getElem?_groupBytes, if_pos hn, Option.map_some, htaint]

end Sys2Proof.Machine
end

section
/-! The four beats (44_stream_control.md R180 to R188): the whole next state after each, in either frame state. -/

namespace Sys2Proof.Machine

/-! ## Which rule a beat runs -/

section
variable {s : State}

/-- A beat other than START finds the frame closed (44_stream_control.md R188). -/
theorem exec_of_done {i : Instr} (hd : s.status.done = true) (hstart : ∀ d, i ≠ .start d) :
    exec i s = .next s.seqError := by
  cases i with
  | sample d => exact if_pos hd
  | endBeat d => exact if_pos hd
  | srcErr d => exact if_pos hd
  | start d => exact absurd rfl (hstart d)

theorem exec_sample_of_open (v : Byte) (hd : s.status.done = false) :
    exec (.sample v) s = .next (s.sampleRun v) := if_neg (by simp [hd])

theorem exec_sample_i_rail (v : Byte) (hd : s.status.done = false) (hi : s.have_i = false) :
    exec (.sample v) s = .next (s.countSample.holdI v) := by
  rw [exec_sample_of_open v hd, State.sampleRun_eq, if_neg (by simp [hi])]

theorem exec_sample_q_rail (v : Byte) (hd : s.status.done = false) (hi : s.have_i = true) :
    exec (.sample v) s = .next (s.completePair v) := by
  rw [exec_sample_of_open v hd, State.sampleRun_eq, if_pos hi]

theorem exec_endBeat_of_open (d : Byte) (hd : s.status.done = false) : exec (.endBeat d) s = .next s.endRun :=
  if_neg (by simp [hd])

theorem exec_srcErr_of_open (d : Byte) (hd : s.status.done = false) : exec (.srcErr d) s = .next s.srcErrRun :=
  if_neg (by simp [hd])

end

/-! ## The closing beats -/

/-- Settles O36: NO_DATA is written and the frame closed. -/
theorem endClosesTheFrame : Obligations.EndClosesTheFrame := by
  intro s d hd
  rw [exec_endBeat_of_open d hd, State.endRun, State.close_eq]
  rfl

/-- Settles O37: SRC_ERR is written and the frame closed. -/
theorem srcErrClosesTheFrame : Obligations.SrcErrClosesTheFrame := by
  intro s d hd
  rw [exec_srcErr_of_open d hd, State.srcErrRun, State.close_eq]
  rfl

/-- Settles O40: each of the three beats finds the frame closed. -/
theorem beatAfterTheCloseOnlySetsSeqErr : Obligations.BeatAfterTheCloseOnlySetsSeqErr := fun _ _ hd =>
  ⟨exec_of_done hd nofun, exec_of_done hd nofun, exec_of_done hd nofun⟩

theorem State.frameClear_srcErrRun_status (s : State) :
    s.frameClear.srcErrRun.status = { Status.reset with done := true, src_err := true } := by
  simp [Status.reset]

theorem State.frameClear_endRun_status (s : State) :
    s.frameClear.endRun.status = { Status.reset with done := true, no_data := true } := by
  simp [Status.reset]

/-- Settles O41: the closing beat meets the frame that START has just cleared, and neither beat reaches the queue. -/
theorem unavailableSourceIsToldFromEmptyCapture : Obligations.UnavailableSourceIsToldFromEmptyCapture := by
  intro s d d'
  refine ⟨s.frameClear.srcErrRun, s.frameClear.endRun, rfl, ?_, State.close_outq _, State.close_cnt_bytes _,
    rfl, ?_, State.close_outq _, State.close_cnt_bytes _⟩
  · rw [State.frameClear_srcErrRun_status]
    decide
  · rw [State.frameClear_endRun_status]
    decide

/-! ## SAMPLE -/

/-- Settles O31: the sample is counted and held. -/
theorem sampleHoldsTheIRail : Obligations.SampleHoldsTheIRail := fun _ v hd hi => exec_sample_i_rail v hd hi

/-- The counts and the record of a pair as one update (44_stream_control.md R182). -/
theorem State.recordPair_eq (s : State) (ok : Bool) : s.recordPair ok = { s with
    cnt_pairs := satValue s.params.cntW s.cnt_pairs
    cnt_ooc := if ok then s.cnt_ooc else satValue s.params.cntW s.cnt_ooc
    status := { s.status with
      ooc := s.status.ooc || !ok
      cnt_sat := s.status.cnt_sat || satHit s.params.cntW s.cnt_pairs
        || (!ok && satHit s.params.cntW s.cnt_ooc) } } := by
  cases ok <;> simp [State.recordPair, State.countPair, State.recordOoc, State.setStatus, State.countOoc,
    State.satStatus]

/-- The Q rail before its bits are shifted, as one update: the sample and the pair are counted, and the I sample is
let go (44_stream_control.md R181, R182). -/
theorem State.recordPair_countSample_dropI_eq (s : State) (ok : Bool) : s.countSample.dropI.recordPair ok = { s with
    have_i := false
    i_reg := 0x00#8
    cnt_samples := satValue s.params.cntW s.cnt_samples
    cnt_pairs := satValue s.params.cntW s.cnt_pairs
    cnt_ooc := if ok then s.cnt_ooc else satValue s.params.cntW s.cnt_ooc
    status := { s.status with
      ooc := s.status.ooc || !ok
      cnt_sat := s.status.cnt_sat || satHit s.params.cntW s.cnt_samples || satHit s.params.cntW s.cnt_pairs
        || (!ok && satHit s.params.cntW s.cnt_ooc) } } := by
  rw [State.recordPair_eq]
  rfl

theorem State.completePair_of_demod {s : State} {v : Byte} {sym : Symbol} {ok : Bool}
    (h : demod s.i_reg v = (sym, ok)) :
    s.completePair v = (s.countSample.dropI.recordPair ok).shiftSymbol sym (!ok) := by
  rw [State.completePair_eq, h]

/-- Settles O32: the loop from a reframer that holds no bit is the first lane. -/
theorem sampleCompletesTheFirstPairOfAByte : Obligations.SampleCompletesTheFirstPairOfAByte := by
  intro s v sym ok hd hi hcnt hdemod
  rw [exec_sample_q_rail v hd hi, State.completePair_of_demod hdemod,
    State.shiftSymbol_of_no_bit _ _ _ (by rw [State.recordPair_bit_cnt]; exact hcnt),
    State.recordPair_countSample_dropI_eq]
  rfl

/-- Settles O33: the loop from a reframer that holds four bits is the second lane, which emits the byte. -/
theorem sampleCompletesTheSecondPairOfAByte : Obligations.SampleCompletesTheSecondPairOfAByte := by
  intro s v sym ok hd hi hcnt hdemod
  rw [exec_sample_q_rail v hd hi, State.completePair_of_demod hdemod,
    State.shiftSymbol_of_four_bits _ _ _ (by rw [State.recordPair_bit_cnt]; exact hcnt),
    State.recordPair_countSample_dropI_eq]
  rfl

end Sys2Proof.Machine
end

section
/-! An out-of-constellation pair in the stream (44_stream_control.md R183). -/

namespace Sys2Proof.Machine

/-- An out-of-constellation pair gives the substitute symbol (40_demodulator.md R104). -/
theorem demod_of_not_ok {i q : Byte} (h : (demod i q).2 = false) : demod i q = (0b0000#4, false) := by
  refine demod_of_not_valid fun ⟨hi, hq⟩ => ?_
  rw [demod_of_valid hi hq] at h
  exact Bool.noConfusion h

/-- The substitute symbol is that of the pair (-3, -3) (20_memory.md R61). -/
theorem demod_lowest_levels : demod 0xFD#8 0xFD#8 = (0b0000#4, true) := by decide

theorem State.completePair_of_ooc {s : State} {q : Byte} (h : (demod s.i_reg q).2 = false) :
    s.completePair q = (s.countSample.dropI.recordPair false).shiftSymbol 0b0000#4 true :=
  State.completePair_of_demod (demod_of_not_ok h)

/-- The I sample is let go with the pair, so nothing of it is left beside the symbol. -/
theorem State.completePair_lowest_levels (s : State) : ({ s with i_reg := 0xFD#8 } : State).completePair 0xFD#8
    = (s.countSample.dropI.recordPair true).shiftSymbol 0b0000#4 false :=
  State.completePair_of_demod (s := { s with i_reg := 0xFD#8 }) demod_lowest_levels

/-- Settles O34: both pairs shift in the bits of symbol 0, on which taint has no influence; whether these bits
complete a byte depends only on how many bits are held. -/
theorem outOfConstellationPairMovesTheStreamAsSymbolZero :
    Obligations.OutOfConstellationPairMovesTheStreamAsSymbolZero := by
  intro s q hd hi hooc
  refine ⟨_, _, exec_sample_q_rail q hd hi, exec_sample_q_rail (s := { s with i_reg := 0xFD#8 }) 0xFD#8 hd hi, ?_⟩
  rw [State.completePair_of_ooc hooc, State.completePair_lowest_levels, State.recordPair_countSample_dropI_eq,
    State.recordPair_countSample_dropI_eq]
  obtain ⟨byte, sr', hloop⟩ := State.shiftSymbol_cases s.key_idx s.sr s.bit_cnt 0b0000#4
  rcases lt_or_ge s.bit_cnt 4 with hc | hc
  · have hshift := fun s' t hk hsr hcnt => (hloop s' t hk hsr hcnt).1 hc
    have hne : s.bit_cnt ≠ 4 := ne_of_lt hc
    simp [hshift, hc, hne]
  · have hemit := fun s' t hk hsr hcnt => (hloop s' t hk hsr hcnt).2 hc
    simp [hemit, hc, not_lt.mpr hc, Bool.or_right_comm]

end Sys2Proof.Machine
end

section
/-! One rising edge (44_stream_control.md R190 to R194): reset, the pop, and the beat that is accepted after it. -/

namespace Sys2Proof.Machine

/-! ## What an edge does -/

section
variable {s : State} {p : PortIn} {rest : List PortIn}

theorem step_of_reset (hr : s.portIn.rst = true) : step s = .next s.takeEdge.resetEdge := if_pos hr

/-- Every edge has a next state (44_stream_control.md R194; 60_exceptions.md R220). -/
theorem exists_step_eq_next (s : State) : ∃ t, step s = .next t := by
  cases hr : s.portIn.rst with
  | true => exact ⟨_, step_of_reset hr⟩
  | false => exact ⟨_, step_of_no_reset hr⟩

/-- A beat offered while there is room runs after the pop of its edge (44_stream_control.md R193). -/
theorem step_of_room (hr : s.portIn.rst = false) (hv : s.portIn.in_valid = true)
    (hroom : s.outq.length < s.params.outDepth) : step s = exec (decode s.portIn.in_word) s.beforeBeat := by
  rw [step_of_no_reset hr, acceptedNow_of_room hr hv (decide_eq_true hroom), exec_eq_afterBeat]
  rfl

/-- An edge that accepts no beat only pops (44_stream_control.md R192, R194). -/
theorem step_of_no_beat (hr : s.portIn.rst = false)
    (hno : ¬ (s.portIn.in_valid = true ∧ s.outq.length < s.params.outDepth)) : step s = .next s.beforeBeat := by
  have hnone : s.acceptedNow = none := by
    simpa [State.acceptedNow, State.accepts, State.inReady, hr] using hno
  rw [step_of_no_reset hr, hnone]
  rfl

/-- The pop, in terms of the host's record of the edge. A pop of an empty queue leaves it empty and delivers nothing,
so that whether it is done then makes no difference (44_stream_control.md R194). -/
theorem State.beforeBeat_of_inputs (hin : s.inputs = p :: rest) : s.beforeBeat = { s with
    inputs := rest
    edge := s.edge + 1
    outq := if p.out_ready = true ∧ 0 < s.outq.length then s.outq.tail else s.outq
    delivered := if p.out_ready = true ∧ 0 < s.outq.length then s.outq.head? else none } := by
  rw [State.beforeBeat_eq, State.portIn_of_inputs hin, hin]
  cases s.outq <;> simp

end

/-! ## The statements about one edge -/

/-- Settles O6: the beat meets the state that the pop of its edge leaves. -/
theorem stepRunsTheDecodedBeat : Obligations.StepRunsTheDecodedBeat := by
  intro s p rest i hin hr hv hroom hdec _
  obtain rfl := State.portIn_of_inputs hin
  rw [step_of_room hr hv hroom, hdec, State.beforeBeat_eq, hin]
  rfl

theorem decode_of_decodeTableWord {nbits w : Nat} {i : Instr} (h : decodeTableWord nbits w = some i) :
    decode (BitVec.ofNat 10 w) = i := by
  by_cases hw : w < 1024
  · simpa [decodeTableWord, decodeNat, hw] using h
  · simp [decodeTableWord, decodeNat, hw] at h

/-- Settles O7: the placed word is an offer at the next edge, with no pop beside it. -/
theorem placedWordRunsNext : Obligations.PlacedWordRunsNext := by
  intro s nbits w i hroom hdec
  obtain ⟨hwf, -, -⟩ := beatWord_law i
  exact stepRunsTheDecodedBeat (s.withFetchWord nbits w) (PortIn.offer (BitVec.ofNat 10 w)) s.inputs i rfl rfl rfl
    hroom (decode_of_decodeTableWord hdec) hwf

/-- Settles O9: a reset, an accepted beat, or the pop alone. -/
theorem stepIsTheStepFunction : Obligations.StepIsTheStepFunction := by
  intro s p rest hin
  refine ⟨?_, exists_step_eq_next s⟩
  dsimp only
  rw [← State.beforeBeat_of_inputs hin]
  obtain rfl := State.portIn_of_inputs hin
  split_ifs with hr hbeat
  · rw [step_of_reset hr, State.resetEdge, State.takeEdge_inputs, hin]
    rfl
  · exact step_of_room (by simpa using hr) hbeat.1 hbeat.2
  · exact step_of_no_beat (by simpa using hr) hbeat

/-- Settles O10: the head is delivered by the pop, and no beat touches what is delivered. -/
theorem popDeliversTheHead : Obligations.PopDeliversTheHead := by
  intro s p rest e q hin hr hready hq
  have hpop : s.beforeBeat = { s with inputs := rest, edge := s.edge + 1, outq := q, delivered := some e } := by
    simp [State.beforeBeat_of_inputs hin, hready, hq]
  obtain rfl := State.portIn_of_inputs hin
  refine ⟨by simp [State.outByte, hq], by simp [State.outTaint, hq], ?_, _, step_of_no_reset hr, ?_⟩
  · rw [← hpop]
    split_ifs with hbeat
    · exact step_of_room hr hbeat.1 hbeat.2
    · exact step_of_no_beat hr hbeat
  · obtain ⟨-, hdelivered, -⟩ := s.beforeBeat.foldl_afterBeat_own_fields s.acceptedNow.toList
    rw [hdelivered, hpop]

/-- Settles O11: with no beat the edge only pops, and there is nothing to pop. -/
theorem popOfEmptyQueueHasNoEffect : Obligations.PopOfEmptyQueueHasNoEffect := by
  intro s p rest hin hr hv hq
  have hpop : s.beforeBeat = { s with inputs := rest, edge := s.edge + 1, delivered := none } := by
    simp [State.beforeBeat_of_inputs hin, hq]
  obtain rfl := State.portIn_of_inputs hin
  rw [step_of_no_beat hr (by simp [hv]), hpop]

/-! ## A full queue -/

/-- The coming edge does not pop, and none of the `k` edges after it does. -/
theorem State.popWithin_succ {s : State} {k : Nat} (h : s.popWithin (k + 1) = false) :
    s.portIn.out_ready = false ∧ s.beforeBeat.popWithin k = false := by
  unfold State.popWithin at *
  rw [State.beforeBeat_inputs]
  cases hin : s.inputs with
  | nil => simp [State.portIn, hin, PortIn.idle]
  | cons p rest => simpa [State.portIn, hin] using h

theorem State.beforeBeat_of_no_pop {s : State} (h : s.portIn.out_ready = false) :
    s.beforeBeat = { s with inputs := s.inputs.tail, edge := s.edge + 1, delivered := none } := by
  simp [State.beforeBeat_eq, h]

/-- Settles O15, by induction on the number of edges: an edge that does not pop leaves the queue full. -/
theorem unpoppedFullQueueBlocksForEver : Obligations.UnpoppedFullQueueBlocksForEver := by
  intro k
  induction k with
  | zero => exact fun s _ _ _ => rfl
  | succ k ih =>
    intro s hfull hreset hpop
    obtain ⟨hr, hreset'⟩ := State.resetWithin_succ hreset
    obtain ⟨hready, hpop'⟩ := State.popWithin_succ hpop
    have hkeep := State.beforeBeat_of_no_pop hready
    have hfull' : s.beforeBeat.params.outDepth ≤ s.beforeBeat.outq.length := by
      rw [hkeep]
      exact hfull
    have hstep := step_of_full hr (s.inReady_eq_false_iff.mpr hfull)
    rw [run_succ_of_step (M := core) k hstep, ih _ hfull' hreset' hpop', hkeep]
    simp [Nat.add_assoc, Nat.add_comm 1]

theorem run_one (M : Host.Core) (s : M.State) : M.run 1 s = M.step s := by
  cases h : M.step s <;> simp [Host.Core.run, h]

/-- Settles O16: the first edge only pops, and leaves room for the beat at the second. -/
theorem popLiftsTheHold : Obligations.PopLiftsTheHold := by
  intro s p p' rest hwf hfull hin hr hready hr' hv' hready'
  have hdepth : 0 < s.params.outDepth := by
    simp only [Params.wellFormed, Bool.and_eq_true, decide_eq_true_eq] at hwf
    omega
  have hpop : s.beforeBeat = { s with
      inputs := p' :: rest, edge := s.edge + 1, outq := s.outq.tail, delivered := s.outq.head? } := by
    simp [State.beforeBeat_of_inputs hin, hready, hfull, hdepth]
  have hroom : s.beforeBeat.outq.length < s.beforeBeat.params.outDepth := by
    rw [State.beforeBeat_params, hpop, List.length_tail, hfull]
    omega
  have hin' : s.beforeBeat.inputs = p' :: rest := by rw [hpop]
  have hwait : step s = .next s.beforeBeat :=
    step_of_full (by rw [State.portIn_of_inputs hin, hr]) (s.inReady_eq_false_iff.mpr hfull.ge)
  obtain ⟨hwfi, -, -⟩ := beatWord_law (decode p'.in_word)
  have hbeat := stepRunsTheDecodedBeat s.beforeBeat p' rest _ hin' hr' hv' hroom rfl hwfi
  have hrun : Host.Core.run core 2 s = step s.beforeBeat :=
    (run_succ_of_step (M := core) 1 hwait).trans (run_one core _)
  rw [hrun, hbeat, hpop, hready']
  rfl

end Sys2Proof.Machine
end

section
/-! The bytes of a capture: the pair step's loop, one bit after the other, pushes the bytes of the batch computation
(42_descrambler.md R141; 43_reframer.md R163, R165), and a finished run has delivered them (44_stream_control.md
R195). -/

namespace Sys2Proof.Machine

/-! ## Whole groups of eight bits -/

theorem groupEntry_congr {bits bits' : List (Bool × Bool)} {n n' : Nat}
    (h : ∀ j < 8, bits.getD (8 * n + j) (false, false) = bits'.getD (8 * n' + j) (false, false)) :
    groupEntry bits n = groupEntry bits' n' := by
  simp (disch := decide) only [groupEntry, h]

/-- The entry of one group is what the reframer emits for it: the eight bits shifted in, with their taints gathered
(43_reframer.md R161, R163). -/
theorem groupEntry_zero {group : List (Bool × Bool)} (h : group.length = 8) : groupEntry group 0 =
    { byte := group.foldl (fun sr b => shiftByte sr b.1) 0x00#8, taint := group.any Prod.snd } := by
  match group, h with
  | [b0, b1, b2, b3, b4, b5, b6, b7], _ => simp [groupEntry, shiftByte_eight, Bool.or_assoc]

/-- Bits after the whole groups do not reach the bytes of these groups. -/
theorem groupEntry_append_left {whole : List (Bool × Bool)} {n m : Nat} (hwhole : whole.length = 8 * n)
    (hm : m < n) (bits : List (Bool × Bool)) : groupEntry (whole ++ bits) m = groupEntry whole m :=
  groupEntry_congr fun j hj => List.getD_append _ _ _ _ (by omega)

theorem groupEntry_append_right {whole : List (Bool × Bool)} {n : Nat} (hwhole : whole.length = 8 * n)
    (bits : List (Bool × Bool)) : groupEntry (whole ++ bits) n = groupEntry bits 0 := by
  refine groupEntry_congr fun j hj => ?_
  rw [List.getD_append_right _ _ _ _ (by omega), hwhole]
  congr 1
  omega

/-- A trailing group of fewer than eight bits gives no byte (43_reframer.md R162). -/
theorem groupBytes_append_part {whole part : List (Bool × Bool)} {n : Nat} (hwhole : whole.length = 8 * n)
    (hpart : part.length < 8) : groupBytes (whole ++ part) = groupBytes whole := by
  have hlen : (whole ++ part).length / 8 = n := by
    rw [List.length_append]
    omega
  have hlen' : whole.length / 8 = n := by omega
  rw [groupBytes, groupBytes, hlen, hlen']
  exact List.map_congr_left fun m hm => groupEntry_append_left hwhole (List.mem_range.mp hm) part

theorem groupBytes_append_group {whole group : List (Bool × Bool)} {n : Nat} (hwhole : whole.length = 8 * n)
    (hgroup : group.length = 8) : groupBytes (whole ++ group) = groupBytes whole ++ [groupEntry group 0] := by
  have hlen : (whole ++ group).length / 8 = n + 1 := by
    rw [List.length_append]
    omega
  have hlen' : whole.length / 8 = n := by omega
  rw [groupBytes, groupBytes, hlen, hlen', List.range_succ, List.map_append, List.map_singleton,
    groupEntry_append_right hwhole]
  congr 1
  exact List.map_congr_left fun m hm => groupEntry_append_left hwhole (List.mem_range.mp hm) group

/-! ## The loop against the batch computation -/

/-- The descrambled bits of a bitstream that starts at key index 0 (42_descrambler.md R141). -/
def descrambledBits (raw : List (Bool × Bool)) : List (Bool × Bool) :=
  raw.zipIdx.map fun b => (b.1.1 ^^ cyclicKey b.2, b.1.2)

theorem frameDescrambled_eq (samples : List Byte) : frameDescrambled samples = descrambledBits (frameBits samples) :=
  rfl

theorem descrambledBits_concat (raw : List (Bool × Bool)) (b : Bool × Bool) :
    descrambledBits (raw ++ [b]) = descrambledBits raw ++ [(b.1 ^^ cyclicKey raw.length, b.2)] := by
  simp [descrambledBits, List.zipIdx_append]

/-- The state after the loop has taken the bits `raw` of a frame, each with its taint, where the queue held `q` before
the frame: of the descrambled bits, the whole groups are in the queue as bytes, and the rest is in the reframer. -/
def State.HasTaken (s : State) (q : List Entry) (raw : List (Bool × Bool)) : Prop :=
  s.key_idx.val = raw.length % 13 ∧ ∃ (n : Nat) (whole part : List (Bool × Bool)),
    descrambledBits raw = whole ++ part ∧ whole.length = 8 * n ∧ part.length = s.bit_cnt.val
    ∧ s.outq = q ++ groupBytes whole ∧ s.sr = part.foldl (fun sr b => shiftByte sr b.1) 0x00#8
    ∧ s.byte_taint = part.any Prod.snd

section
variable {s : State} {q : List Entry} {raw : List (Bool × Bool)}

/-- START opens a frame of which no bit has been taken. -/
theorem State.hasTaken_frameClear (s : State) : s.frameClear.HasTaken s.outq [] :=
  ⟨rfl, 0, [], [], rfl, rfl, rfl, (List.append_nil _).symm, rfl, rfl⟩

theorem State.HasTaken.outq_eq (h : s.HasTaken q raw) : s.outq = q ++ groupBytes (descrambledBits raw) := by
  obtain ⟨-, n, whole, part, hbits, hwhole, hpart, hq, -, -⟩ := h
  rw [hbits, groupBytes_append_part hwhole (by rw [hpart]; exact s.bit_cnt.isLt), hq]

/-- One turn of the loop takes one more bit. -/
theorem State.HasTaken.bitStep (h : s.HasTaken q raw) (t b : Bool) :
    (s.bitStep t b).HasTaken q (raw ++ [(b, t)]) := by
  obtain ⟨hkey, n, whole, part, hbits, hwhole, hpart, hq, hsr, htaint⟩ := h
  have hidx : (s.key_idx + 1).val = (raw ++ [(b, t)]).length % 13 := by
    rw [Fin.val_add, hkey, Nat.mod_add_mod, List.length_append]
    rfl
  have hdesc : key s.key_idx = cyclicKey raw.length := congrArg key (Fin.ext hkey)
  have hbits' : descrambledBits (raw ++ [(b, t)]) = whole ++ (part ++ [(b ^^ key s.key_idx, t)]) := by
    rw [descrambledBits_concat, hbits, hdesc, List.append_assoc]
  by_cases hc : s.bit_cnt = 7
  · have hgroup : (part ++ [(b ^^ key s.key_idx, t)]).length = 8 := by
      rw [List.length_append, hpart, hc]
      rfl
    rw [State.bitStep_last s t b hc]
    refine ⟨hidx, n + 1, _, [], by rw [hbits', List.append_nil], ?_, rfl, ?_, rfl, rfl⟩
    · rw [List.length_append, hwhole, hgroup]
      omega
    · rw [groupBytes_append_group hwhole hgroup, groupEntry_zero hgroup, hq, hsr, htaint]
      simp
  · have hcnt : (s.bit_cnt + 1).val = s.bit_cnt.val + 1 := by
      have hne := Fin.val_ne_of_ne hc
      exact Nat.mod_eq_of_lt (show s.bit_cnt.val + 1 < 8 by have := s.bit_cnt.isLt; omega)
    rw [State.bitStep_within s t b hc]
    exact ⟨hidx, n, whole, _, hbits', hwhole, by simp [hpart, hcnt], hq, by simp [hsr], by simp [htaint]⟩

/-- The loop takes the bits of one symbol. -/
theorem State.HasTaken.foldl_bitStep (h : s.HasTaken q raw) (t : Bool) (bits : List Bool) :
    (bits.foldl (State.bitStep t) s).HasTaken q (raw ++ bits.map fun b => (b, t)) := by
  induction bits generalizing s raw with
  | nil => simpa using h
  | cons b bits ih => simpa using ih (h.bitStep t b)

/-- The Q rail takes the bits of its pair, with the pair's taint. -/
theorem State.HasTaken.completePair (h : s.HasTaken q raw) (v : Byte) : (s.completePair v).HasTaken q
    (raw ++ (ser (demod s.i_reg v).1).map fun b => (b, !(demod s.i_reg v).2)) := by
  have hrecord : (s.countSample.dropI.recordPair (demod s.i_reg v).2).HasTaken q raw := by
    rw [State.recordPair_countSample_dropI_eq]
    exact h
  rw [State.completePair_eq]
  exact hrecord.foldl_bitStep _ _

/-- The I rail only waits. -/
theorem State.HasTaken.holdSample (h : s.HasTaken q raw) (v : Byte) : (s.countSample.holdI v).HasTaken q raw := h

theorem State.afterBeat_of_exec {i : Instr} {t : State} (h : exec i s = .next t) : s.afterBeat i = t :=
  Host.Outcome.next.inj ((exec_eq_afterBeat i s).symm.trans h)

/-- The samples of an open frame take the bits of their pairs, and an odd trailing sample takes none; by induction on
the pairs. -/
theorem State.HasTaken.foldl_samples (h : s.HasTaken q raw) (hd : s.status.done = false) (hi : s.have_i = false)
    (samples : List Byte) :
    ((samples.map Instr.sample).foldl State.afterBeat s).HasTaken q (raw ++ frameBits samples)
    ∧ ((samples.map Instr.sample).foldl State.afterBeat s).status.done = false := by
  induction samples using framePairs.induct generalizing s raw with
  | case1 i v rest ih =>
    have hfirst := State.afterBeat_of_exec (exec_sample_i_rail i hd hi)
    have hsecond : (s.countSample.holdI i).afterBeat (.sample v) = (s.countSample.holdI i).completePair v :=
      State.afterBeat_of_exec (exec_sample_q_rail v hd rfl)
    have hrest := ih ((h.holdSample i).completePair v) (by rw [State.completePair_status]; exact hd)
      (State.completePair_have_i _ _)
    rw [List.append_assoc] at hrest
    rw [List.map_cons, List.map_cons, List.foldl_cons, List.foldl_cons, hfirst, hsecond]
    exact hrest
  | case2 samples hshort =>
    match samples with
    | [] => exact ⟨by simpa [frameBits, framePairs] using h, hd⟩
    | [v] =>
      have hlast := State.afterBeat_of_exec (exec_sample_i_rail v hd hi)
      rw [List.map_singleton, List.foldl_cons, List.foldl_nil, hlast]
      exact ⟨by simpa [frameBits, framePairs] using h.holdSample v, hd⟩
    | i :: v :: rest => exact absurd rfl (hshort i v rest)

end

/-- The beats of a capture push exactly the bytes of the batch computation (60_exceptions.md R241). -/
theorem State.foldl_captureBeats_outq (s : State) (samples : List Byte) (d d' : Byte) :
    ((captureBeats d samples d').foldl State.afterBeat s).outq = s.outq ++ frameEntries samples := by
  obtain ⟨htaken, hopen⟩ := s.hasTaken_frameClear.foldl_samples rfl rfl samples
  set u := (samples.map Instr.sample).foldl State.afterBeat s.frameClear with hu
  have hbeats : (captureBeats d samples d').foldl State.afterBeat s = u.endRun := by
    rw [captureBeats, List.foldl_append, List.foldl_cons, List.foldl_cons, List.foldl_nil,
      ← State.afterBeat_of_exec (exec_endBeat_of_open d' hopen), hu]
    rfl
  rw [hbeats, State.endRun, State.close_outq, State.setStatus_outq, htaken.outq_eq, List.nil_append,
    ← frameDescrambled_eq, frameEntries]

/-- Settles O55: the accepted beats alone determine what is delivered and what is still queued, and at the end of the
run nothing is queued. -/
theorem finishedRunDeliversTheDecodedCapture : Obligations.FinishedRunDeliversTheDecodedCapture := by
  intro k s t samples d d' _ hreset hrun hbeats hover
  obtain ⟨t', hrun', -, hqueue⟩ := run_reachedBy k s hreset
  obtain rfl : t = t' := Host.Outcome.next.inj (hrun.symm.trans hrun')
  have hempty : t.outq = [] := by
    simp only [State.runOver, Bool.and_eq_true, List.isEmpty_iff] at hover
    exact hover.2
  rw [hempty, List.append_nil, hbeats, State.foldl_captureBeats_outq] at hqueue
  exact hqueue

end Sys2Proof.Machine
end

section
/-! The anomalies of a closed frame, and the edges at which nothing happens (60_exceptions.md R220, R221, R231, R234). -/

namespace Sys2Proof.Machine

/-- Settles O12: the edge accepts no beat and pops nothing. -/
theorem idleEdgeKeepsTheState : Obligations.IdleEdgeKeepsTheState := by
  intro s hr hv hready
  rw [step_of_no_beat hr (by simp [hv]), State.beforeBeat_of_no_pop hready]

/-- Settles O14: a beat answers `afterBeat`, and an edge resets, runs a beat or only pops. -/
theorem everyStepHasASuccessor : Obligations.EveryStepHasASuccessor :=
  ⟨fun i s => ⟨_, exec_eq_afterBeat i s⟩, exists_step_eq_next⟩

/-- RESIDUAL is a flag as a whole: one of its bits is 1 exactly when it is not 0 (60_exceptions.md R226). -/
theorem bne_zero_eq_any_bit (r : BitVec 4) :
    (r != 0#4) = (r.getLsbD 0 || (r.getLsbD 1 || (r.getLsbD 2 || r.getLsbD 3))) := by
  revert r
  decide

/-- The code of an anomaly names the bits of the STATUS word that record it (60_exceptions.md R221). -/
theorem Status.records_eq_any_code (st : Status) (a : Anomaly) :
    st.records a = a.code.any fun b => st.word.getLsbD b := by
  cases a with
  | incompleteTrailingBitGroup =>
    simp [Status.records, Anomaly.code, Status.getLsbD_word, bne_zero_eq_any_bit]
  | _ => simp [Status.records, Anomaly.code, Status.getLsbD_word]

/-- Settles O58: each code against the layout of the STATUS word. -/
theorem anomalyCodesAreTheStatusBits : Obligations.AnomalyCodesAreTheStatusBits := by
  refine ⟨fun s a => s.status.records_eq_any_code a, rfl, rfl, rfl, rfl, rfl, rfl, rfl, fun s => ?_⟩
  obtain ⟨-, -, -, -, -, -, -, -, hresidual, -⟩ := statusWordLayout s
  exact hresidual

/-- In an open frame that has counted no sample, no sample waits and no bit is held: CNT_SAMPLES = 0 is not the
value that a saturated counter shows, so the counters tell the stream position (10_state.md R37, R51). -/
theorem State.Inv.nothing_held_of_no_samples {s : State} (h : s.Inv) (hd : s.status.done = false)
    (hzero : s.cnt_samples = 0) : s.have_i = false ∧ s.bit_cnt = 0 := by
  have hwidth := h.width
  have hsat : s.status.cnt_sat = false := Bool.eq_false_iff.mpr fun hsat => by
    have := h.saturation hsat
    omega
  obtain ⟨hpairs, -, -, hbits, -⟩ := h.counting hsat
  have hparity := h.samples_parity hsat
  rw [hzero] at hpairs hparity
  exact ⟨by simpa using fun hi => hparity.mpr (.inl hi), Fin.ext (by simp [hbits hd, hpairs])⟩

/-- Settles O48: NO_DATA is set by an END that finds CNT_SAMPLES = 0, and then there is nothing to drop. -/
theorem noDataComesAlone : Obligations.NoDataComesAlone := by
  intro s t d h hd hexec hnodata
  obtain rfl := Host.Outcome.next.inj ((exec_endBeat_of_open d hd).symm.trans hexec)
  rw [State.endRun_status] at hnodata ⊢
  obtain ⟨-, -, horphan, -⟩ := h.open_flags hd
  obtain ⟨hi, hcnt⟩ := h.nothing_held_of_no_samples hd (of_decide_eq_true hnodata)
  simp [horphan, hi, hcnt]

end Sys2Proof.Machine
end

section
/-! The report of a capture: what the counters and STATUS hold after START, the samples of a capture and END
(10_state.md R40 to R44; 60_exceptions.md R241). -/

namespace Sys2Proof.Machine

/-! ## A counter that has been incremented `n` times -/

theorem satValue_min (w n : Nat) : satValue w (min n (2 ^ w - 1)) = min (n + 1) (2 ^ w - 1) := by
  unfold satValue
  split <;> omega

theorem satHit_min (w n : Nat) : satHit w (min n (2 ^ w - 1)) = decide (2 ^ w ≤ n + 1) := by
  have hpos := Nat.two_pow_pos w
  exact decide_eq_decide.mpr (by omega)

/-! ## The pairs of a capture -/

theorem length_framePairs (samples : List Byte) : (framePairs samples).length = samples.length / 2 := by
  induction samples using framePairs.induct with
  | case1 i q rest ih =>
    simp only [framePairs, List.length_cons, ih]
    omega
  | case2 samples hshort =>
    match samples with
    | [] => rfl
    | [_] => simp [framePairs]
    | i :: q :: rest => exact absurd rfl (hshort i q rest)

/-- Two pairs make a byte (43_reframer.md R164). -/
theorem length_frameEntries (samples : List Byte) : (frameEntries samples).length = samples.length / 2 / 2 := by
  simp only [frameEntries, groupBytes, List.length_map, List.length_range, length_frameDescrambled, length_frameBits,
    length_framePairs]
  omega

theorem framePairsOoc_cons_cons (i q : Byte) (rest : List Byte) :
    framePairsOoc (i :: q :: rest) = (!(demod i q).2).toNat + framePairsOoc rest := by
  cases hok : (demod i q).2 <;> simp [framePairsOoc, framePairs, hok, Nat.add_comm]

/-! ## The report of an open frame -/

/-- What an open frame of a build with `w`-bit counters reports after `n` samples whose pairs hold `ooc`
out-of-constellation ones (10_state.md R28 to R44). CNT_SAMPLES counts the most, so CNT_SAT is its saturation. -/
structure State.HasCounted (s : State) (w n ooc : Nat) : Prop where
  /-- CNT_W of the build (00_scope.md R6). -/
  width : s.params.cntW = w
  /-- CNT_SAMPLES, at its maximum once saturated (R40, R41). -/
  samples : s.cnt_samples = min n (2 ^ w - 1)
  /-- CNT_PAIRS (R42). -/
  pairs : s.cnt_pairs = min (n / 2) (2 ^ w - 1)
  /-- CNT_OOC (R43). -/
  out_of_constellation : s.cnt_ooc = min ooc (2 ^ w - 1)
  /-- CNT_BYTES, one for two pairs (R44). -/
  bytes : s.cnt_bytes = min (n / 2 / 2) (2 ^ w - 1)
  /-- An out-of-constellation pair is one of the pairs. -/
  ooc_le_pairs : ooc ≤ n / 2
  /-- An odd sample waits for its pair (R28). -/
  rail : s.have_i = decide (n % 2 = 1)
  /-- Each pair brings four bits (41_bit_assembler.md R124). -/
  held_bits : s.bit_cnt.val = 4 * (n / 2) % 8
  /-- The flags of an open frame (R35, R37). -/
  status : s.status = { Status.reset with ooc := decide (0 < ooc), cnt_sat := decide (2 ^ w ≤ n) }

theorem State.hasCounted_frameClear (s : State) : s.frameClear.HasCounted s.params.cntW 0 0 where
  width := rfl
  samples := (Nat.zero_min _).symm
  pairs := (Nat.zero_min _).symm
  out_of_constellation := (Nat.zero_min _).symm
  bytes := (Nat.zero_min _).symm
  ooc_le_pairs := Nat.le_refl _
  rail := rfl
  held_bits := rfl
  status := by simp [Status.reset]

section
variable {s : State} {w n ooc : Nat}

theorem State.HasCounted.done_eq (h : s.HasCounted w n ooc) : s.status.done = false := by
  rw [h.status]
  rfl

/-- After an even number of samples the next one is an I rail, which completes nothing. -/
theorem State.HasCounted.holdSample (h : s.HasCounted w n ooc) (heven : n % 2 = 0) (v : Byte) :
    (s.countSample.holdI v).HasCounted w (n + 1) ooc where
  width := h.width
  samples := by
    rw [State.holdI_cnt_samples, State.countSample_cnt_samples, h.width, h.samples, satValue_min]
  pairs := by
    rw [State.holdI_cnt_pairs, State.countSample_cnt_pairs, h.pairs]
    omega
  out_of_constellation := h.out_of_constellation
  bytes := by
    rw [State.holdI_cnt_bytes, State.countSample_cnt_bytes, h.bytes]
    omega
  ooc_le_pairs := h.ooc_le_pairs.trans (by omega)
  rail := by
    rw [State.holdI_have_i]
    exact (decide_eq_true (by omega)).symm
  held_bits := by
    rw [State.holdI_bit_cnt, State.countSample_bit_cnt, h.held_bits]
    omega
  status := by
    have hsat : (decide (2 ^ w ≤ n) || decide (2 ^ w ≤ n + 1)) = decide (2 ^ w ≤ n + 1) := by
      rw [← Bool.decide_or]
      exact decide_eq_decide.mpr (by omega)
    rw [State.holdI_status, State.countSample_status, State.satStatus, h.width, h.samples, h.status, satHit_min, hsat]

/-- After an odd number of samples the next one is a Q rail: a pair is counted, and every second pair a byte. -/
theorem State.HasCounted.completePair (h : s.HasCounted w n ooc) (hodd : n % 2 = 1) (v : Byte) :
    (s.completePair v).HasCounted w (n + 1) (ooc + (!(demod s.i_reg v).2).toNat) where
  width := by rw [State.completePair_params, h.width]
  samples := by rw [State.completePair_cnt_samples, h.width, h.samples, satValue_min]
  pairs := by
    rw [State.completePair_cnt_pairs, h.width, h.pairs, satValue_min]
    omega
  out_of_constellation := by
    rw [State.completePair_cnt_ooc, h.width, h.out_of_constellation, satValue_min]
    cases (demod s.i_reg v).2 <;> rfl
  bytes := by
    have hbyte : 4 ≤ s.bit_cnt ↔ n / 2 % 2 = 1 := by
      rw [Fin.le_def, h.held_bits]
      show 4 ≤ _ ↔ _
      omega
    rw [State.completePair_cnt_bytes, h.width, h.bytes, satValue_min]
    split_ifs with hc <;> rw [hbyte] at hc <;> omega
  ooc_le_pairs := by
    have := h.ooc_le_pairs
    have := Bool.toNat_le (!(demod s.i_reg v).2)
    omega
  rail := by
    rw [State.completePair_have_i]
    exact (decide_eq_false (by omega)).symm
  held_bits := by
    have hcnt := h.held_bits
    rw [State.completePair_bit_cnt, Fin.val_add, hcnt]
    show (_ + 4) % 8 = _
    omega
  status := by
    have hooc := h.ooc_le_pairs
    rw [State.completePair_status, h.width, h.samples, h.pairs, h.out_of_constellation, h.bytes, h.status]
    simp only [satHit_min]
    congr 1
    · cases (demod s.i_reg v).2 <;> simp
    · rw [Bool.eq_iff_iff]
      simp only [Bool.or_eq_true, Bool.and_eq_true, decide_eq_true_eq]
      omega

/-- The samples of a capture, by induction on the pairs. -/
theorem State.HasCounted.foldl_samples (h : s.HasCounted w n ooc) (heven : n % 2 = 0) (samples : List Byte) :
    ((samples.map Instr.sample).foldl State.afterBeat s).HasCounted w (n + samples.length)
      (ooc + framePairsOoc samples) := by
  have hi : s.have_i = false := by simp [h.rail, heven]
  induction samples using framePairs.induct generalizing s n ooc with
  | case1 i q rest ih =>
    have hfirst := State.afterBeat_of_exec (exec_sample_i_rail i h.done_eq hi)
    have hheld := h.holdSample heven i
    have hsecond := State.afterBeat_of_exec (exec_sample_q_rail (s := s.countSample.holdI i) q hheld.done_eq rfl)
    have hpair := hheld.completePair (by omega) q
    have hrest := ih hpair (by omega) (State.completePair_have_i _ _)
    have hlength : n + (i :: q :: rest).length = n + 1 + 1 + rest.length := by
      simp only [List.length_cons]
      omega
    rw [List.map_cons, List.map_cons, List.foldl_cons, List.foldl_cons, hfirst, hsecond, framePairsOoc_cons_cons,
      hlength, ← Nat.add_assoc ooc]
    exact hrest
  | case2 samples hshort =>
    match samples with
    | [] => exact h
    | [v] =>
      have hlast := State.afterBeat_of_exec (exec_sample_i_rail v h.done_eq hi)
      rw [List.map_singleton, List.foldl_cons, List.foldl_nil, hlast]
      exact h.holdSample heven v
    | i :: q :: rest => exact absurd rfl (hshort i q rest)

/-- END adds to the report what it drops, and NO_DATA for an empty frame (44_stream_control.md R184, R185). A counter
of at least one bit shows 0 samples only when there were none. -/
theorem State.HasCounted.endRun_status (h : s.HasCounted w n ooc) (hw : 0 < w) : s.endRun.status = { Status.reset with
    done := true
    no_data := decide (n = 0)
    orphan := decide (n % 2 = 1)
    ooc := decide (0 < ooc)
    cnt_sat := decide (2 ^ w ≤ n)
    residual := BitVec.ofNat 4 (4 * (n / 2) % 8) } := by
  have hmax := Nat.one_lt_two_pow (Nat.ne_of_gt hw)
  have hnone : min n (2 ^ w - 1) = 0 ↔ n = 0 := by omega
  rw [State.endRun_status, h.samples, h.rail, h.held_bits, h.status, decide_eq_decide.mpr hnone]
  rfl

end

/-- The beats of a capture: the samples run in the frame that START has cleared, and END closes it. -/
theorem State.foldl_captureBeats (s : State) (samples : List Byte) (d d' : Byte) :
    (captureBeats d samples d').foldl State.afterBeat s
      = ((samples.map Instr.sample).foldl State.afterBeat s.frameClear).endRun := by
  have hopen := (s.hasCounted_frameClear.foldl_samples rfl samples).done_eq
  rw [captureBeats, List.foldl_append]
  exact State.afterBeat_of_exec (exec_endBeat_of_open d' hopen)

/-- Settles O54: the queue by the bits taken (`State.HasTaken`), the report by the samples counted. -/
theorem captureIsDecodedWhole : Obligations.CaptureIsDecodedWhole := by
  intro s samples d d' hwf
  have hw : 0 < s.params.cntW := by
    simp only [Params.wellFormed, Bool.and_eq_true, decide_eq_true_eq] at hwf
    omega
  have hcounted := s.hasCounted_frameClear.foldl_samples rfl samples
  simp only [Nat.zero_add] at hcounted
  have hstatus := hcounted.endRun_status hw
  refine ⟨_, execAll_eq_foldl _ s, s.foldl_captureBeats_outq samples d d', ?_⟩
  rw [s.foldl_captureBeats, length_frameEntries, hstatus]
  simp only [State.endRun, State.close_cnt_samples, State.close_cnt_pairs, State.close_cnt_ooc, State.close_cnt_bytes]
  refine ⟨hcounted.samples, hcounted.pairs, hcounted.out_of_constellation, hcounted.bytes, ?_⟩
  cases samples <;> rfl

end Sys2Proof.Machine
end

section
/-! The reset edge (70_reset_and_hazards.md R260), and how the state after it compares with the state after START
(R261). -/

namespace Sys2Proof.Machine

/-- Settles O13: a reset edge is decided before the pop and the beat, and takes only the host's record of the edge. -/
theorem resetEdgeResetsEverything : Obligations.ResetEdgeResetsEverything := by
  intro s p rest hin hr
  obtain rfl := State.portIn_of_inputs hin
  rw [step_of_reset hr, State.resetEdge, State.takeEdge_params, State.takeEdge_inputs, State.takeEdge_edge, hin,
    List.tail_cons]

/-- Settles O39: both states are the reset values beside the model's own fields, and only START keeps `outq`. -/
theorem resetAndStartDifferOnlyInTheQueue : Obligations.ResetAndStartDifferOnlyInTheQueue := by
  intro s t u p rest d hin hr hreset hstart
  obtain rfl := Host.Outcome.next.inj ((resetEdgeResetsEverything s p rest hin hr).symm.trans hreset)
  obtain rfl := Host.Outcome.next.inj ((startClearsTheFrame s.takeEdge d).symm.trans hstart)
  have hinputs : s.takeEdge.inputs = rest := by rw [State.takeEdge_inputs, hin, List.tail_cons]
  refine ⟨rfl, rfl, State.takeEdge_outq s, ?_⟩
  rw [hinputs, State.takeEdge_params, State.takeEdge_outq, State.takeEdge_delivered, State.takeEdge_edge]
  rfl

end Sys2Proof.Machine
end
